-- ==== Sys2Proof/Word.lean ====
section
/-! DEFINITION. The widths the spec names (00_scope.md R10, R12): bit vectors, bit 0 the least significant. -/

namespace Sys2Proof

/-- A byte of a serialised word (20_memory.md R42). -/
abbrev Byte := BitVec 8

/-- The width of the state register, the engine output, the seeds and the bounds (R10). -/
abbrev U64 := BitVec 64

/-- The width of the mixing product (R10). -/
abbrev U128 := BitVec 128

/-- A command word on the command port (30_encoding.md R56). -/
abbrev CommandBits := BitVec 136

/-- A response on the response port (30_encoding.md R60). -/
abbrev ResponseBits := BitVec 66

end Sys2Proof
end

