-- ==== Sys2Proof/Config.lean ====
section
/-! DEFINITION. What an implementation fixes: the open parameters of 00_scope.md R6 to R9 and the named profiles of R8.
They are configuration, not state: no command and no reset touches them (70_reset_and_hazards.md R156). -/

namespace Sys2Proof

/-- The engine algorithm (00_scope.md R9): the only admitted value is `WYRAND`. -/
inductive Alg where
  | wyrand
  deriving DecidableEq, Repr

/-- The configuration of one instance. -/
structure Config where
  /-- `ALG` (R9) -/
  alg : Alg
  /-- `WY_INC`, the increment; required odd (R6), see `Config.wf` -/
  wyInc : U64
  /-- `WY_MASK`, the mixing mask (R7) -/
  wyMask : U64
  deriving DecidableEq, Repr

/-- R6's side condition `WY_INC[0] = 1`: an implementation with an even increment is outside the spec (R87). -/
def Config.wf (c : Config) : Bool := c.wyInc.getLsbD 0

/-- Profile `DOC`, the spec's default (R8). PRESUMED: the increment is the spec's own default "from general knowledge, not in
source" (log 3). DESIGN CHOICE: the all-ones mask is D10's reading of the source (log 4). -/
def Config.doc : Config := ⟨.wyrand, 0xA0761D6478BD642F, 0xFFFFFFFFFFFFFFFF⟩

/-- Profile `CANON` (R8). -/
def Config.canon : Config := ⟨.wyrand, 0xA0761D6478BD642F, 0xE7037ED1A0B428DB⟩

/-- Profile `TOY` (R8), for checking the arithmetic by hand. -/
def Config.toy : Config := ⟨.wyrand, 1, 0xFFFFFFFFFFFFFFFF⟩

end Sys2Proof
end

