-- ==== Sys2Proof/Syntax.lean ====
section
/-! DEFINITION. The six commands (30_encoding.md R55) and the fields of a command word (R56). -/

namespace Sys2Proof

/-- The fields of a 136-bit command word, format `CMD` (30_encoding.md R56), legal or not. -/
structure CmdWord where
  /-- bits [2:0], the opcode (R57) -/
  op : BitVec 3
  /-- bits [4:3], the width selection, used by CONSTRUCT only (R58) -/
  wsel : BitVec 2
  /-- bits [7:5], reserved, must be zero (R59) -/
  rsv : BitVec 3
  /-- bits [71:8], the first operand: a seed or `low` -/
  a : U64
  /-- bits [135:72], the second operand: `high` -/
  b : U64
  deriving DecidableEq, Repr

/-- A command, with the operand fields it uses (R55, R62). Every value of every field is a legal operand, so there is no
ill-formed `Instr`: what can be ill-formed is a command word (`CmdWord`, R63). -/
inductive Instr where
  /-- CONSTRUCT: width selection and seed (40_wyrand_engine.md R76). -/
  | construct (wsel : BitVec 2) (seed : U64)
  /-- RESEED: seed (40_wyrand_engine.md R77). -/
  | reseed (seed : U64)
  /-- NEXT (40_wyrand_engine.md R83). -/
  | next
  /-- GENERATE (41_output_width_adapter.md R101). -/
  | generate
  /-- GENERATE_RANGE: the operand fields as presented; the bounds are their low `W` bits (42_range_sampler.md R114, R121). -/
  | generateRange (a b : U64)
  /-- READ_STATE (40_wyrand_engine.md R84). -/
  | readState
  deriving DecidableEq, Repr

end Sys2Proof
end

