-- ==== Sys2Proof/WellFormed.lean ====
section
/-! DEFINITION. When a command word is legally encoded (30_encoding.md R63): the three checks, on the control byte alone. -/

namespace Sys2Proof

/-- R65: `rsv` is zero. -/
def CmdWord.rsvZero (c : CmdWord) : Bool := c.rsv == 0

/-- R64: `op` is in 1 to 6 (0 and 7 are reserved). -/
def CmdWord.opAssigned (c : CmdWord) : Bool := decide (1 ≤ c.op.toNat ∧ c.op.toNat ≤ 6)

/-- R66: `wsel` is zero unless `op` is CONSTRUCT's. -/
def CmdWord.wselAllowed (c : CmdWord) : Bool := c.wsel == 0 || c.op == 1

/-- R63: a command word is legally encoded when all three hold. -/
def CmdWord.legal (c : CmdWord) : Bool := c.rsvZero && c.opAssigned && c.wselAllowed

end Sys2Proof
end

