-- ==== Sys2Proof/Decode.lean ====
section
/-! DEFINITION. From bits to a command or a named rejection (30_encoding.md R68), and back (R56, R70); the byte string of a
command word (20_memory.md R42); the assembler text and the pseudo-commands (R70, R71). -/

namespace Sys2Proof

/-- Why a command word, or a byte string, is no command. The machine answers the first three with status ILLEGAL_COMMAND
(60_exceptions.md R131); the fourth cannot reach the block, which is presented whole words only (20_memory.md R43). -/
inductive DecodeReject where
  /-- `rsv` is not zero (R65). -/
  | reservedBits
  /-- `op` is 0 or 7 (R64). -/
  | reservedOpcode
  /-- `wsel` is not zero and `op` is not CONSTRUCT's (R66). -/
  | widthOutsideConstruct
  /-- A byte string that is not the 17 bytes of one word (R43; log 13). -/
  | notOneWord
  deriving DecidableEq, Repr

/-- The fields of a command word (R56). -/
def fieldsOf (w : CommandBits) : CmdWord where
  op := w.extractLsb' 0 3
  wsel := w.extractLsb' 3 2
  rsv := w.extractLsb' 5 3
  a := w.extractLsb' 8 64
  b := w.extractLsb' 72 64

/-- The command word with given fields (R56): `b * 2^72 + a * 2^8 + rsv * 2^5 + wsel * 2^3 + op`. -/
def packFields (c : CmdWord) : CommandBits := c.b ++ c.a ++ c.rsv ++ c.wsel ++ c.op

/-- R68, on the fields: the tests in the rule's order. -/
def decodeFields (c : CmdWord) : Except DecodeReject Instr :=
  if c.rsv ≠ 0 then .error .reservedBits
  else if c.op = 0 ∨ c.op = 7 then .error .reservedOpcode
  else if c.op = 1 then .ok (.construct c.wsel c.a)
  else if c.wsel ≠ 0 then .error .widthOutsideConstruct
  else if c.op = 2 then .ok (.reseed c.a)
  else if c.op = 3 then .ok .next
  else if c.op = 4 then .ok .generate
  else if c.op = 5 then .ok (.generateRange c.a c.b)
  else .ok .readState

/-- R68: the command a word selects, total on the `2^136` words. -/
def decode (w : CommandBits) : Except DecodeReject Instr := decodeFields (fieldsOf w)

/-- The canonical fields of a command: every ignored bit zero (R67, R70). -/
def encodeFields (i : Instr) : CmdWord :=
  match i with
  | .construct wsel seed => ⟨1, wsel, 0, seed, 0⟩
  | .reseed seed => ⟨2, 0, 0, seed, 0⟩
  | .next => ⟨3, 0, 0, 0, 0⟩
  | .generate => ⟨4, 0, 0, 0, 0⟩
  | .generateRange a b => ⟨5, 0, 0, a, b⟩
  | .readState => ⟨6, 0, 0, 0, 0⟩

/-- The canonical word of a command (R70). -/
def encode (i : Instr) : CommandBits := packFields (encodeFields i)

/-- Byte `i` of a value's byte string is bits `[8i + 7 : 8i]` (20_memory.md R42: little-endian). -/
def byteAt {n : Nat} (w : BitVec n) (i : Nat) : Byte := w.extractLsb' (8 * i) 8

/-- The 17 bytes of a command word, the control byte first (R42). -/
def wordBytes (w : CommandBits) : List Byte := (List.range 17).map (byteAt w)

/-- The number a little-endian byte string stands for (R42). -/
def bytesNumber : List Byte → Nat
  | [] => 0
  | x :: xs => x.toNat + 256 * bytesNumber xs

/-- The command word a byte string stands for, where it is exactly one word (R42, R43). -/
def wordOfBytes (bs : List Byte) : Option CommandBits :=
  if bs.length = 17 then some (BitVec.ofNat 136 (bytesNumber bs)) else none

/-- Decoding a byte string: total on any bytes, rejecting by name. -/
def decodeBytes (bs : List Byte) : Except DecodeReject Instr :=
  match wordOfBytes bs with
  | some w => decode w
  | none => .error .notOneWord

/-- The word of an instruction whose low `nbits` bits are `w`, the bits above zero: bit 0 is bit 0 of the control byte. -/
def tableWord (nbits w : Nat) : CommandBits := BitVec.ofNat 136 (w % 2 ^ nbits)

/-- What the decoder reads from an instruction whose bits are `w`, laid out as bytes the way R42 serialises a word. -/
def decodeTableWord (nbits w : Nat) : Option Instr :=
  match decodeBytes (wordBytes (tableWord nbits w)) with
  | .ok i => some i
  | .error _ => none

/-- R71: `RESTORE.w state`, an alias of CONSTRUCT. -/
def pseudoRestore (wsel : BitVec 2) (state : U64) : Instr := .construct wsel state

/-- R71: `GENERATE_ONE v`, that is `GENERATE_RANGE v, v`. -/
def pseudoGenerateOne (v : U64) : Instr := .generateRange v v

/-- R70: the assembler text of a command, operands in decimal. -/
def asmText (i : Instr) : String :=
  match i with
  | .construct wsel seed => "CONSTRUCT." ++ toString (8 <<< wsel.toNat) ++ " " ++ toString seed.toNat
  | .reseed seed => "RESEED " ++ toString seed.toNat
  | .next => "NEXT"
  | .generate => "GENERATE"
  | .generateRange a b => "GENERATE_RANGE " ++ toString a.toNat ++ ", " ++ toString b.toNat
  | .readState => "READ_STATE"

end Sys2Proof
end

