-- ==== Sys2Proof/Machine/State.lean ====
section
/-! DEFINITION. The state of one CORE instance (10_state.md R20) with what crosses its ports (20_memory.md R41), and the reasons
a step could stop. Plain data. -/

namespace Sys2Proof.Machine

/-- The status codes of a response, in the order of their codes 0 to 3 (60_exceptions.md R130). -/
inductive Status where
  | ok
  | invalidRange
  | notConstructed
  | illegalCommand
  deriving DecidableEq, Repr

/-- One response: 2-bit status, 64-bit data (30_encoding.md R60). -/
structure Response where
  status : Status
  data : U64
  deriving DecidableEq, Repr

/-- A constructed generator: the two registers that hold a value exactly while `INIT = 1` (10_state.md R20, R26). -/
structure Generator where
  /-- `S`, the Algorithm State (R23) -/
  S : U64
  /-- `WSEL`, the Output Width Marker (R24): `W = 8 << WSEL` -/
  WSEL : BitVec 2
  deriving DecidableEq, Repr

/-- One thing the host does to the block (70_reset_and_hazards.md R171): assert `reset`, between two commands (R155), or present
a command word. -/
inductive HostInput where
  | reset
  | command (w : CommandBits)
  deriving DecidableEq, Repr

/-- The state of one instance. The architectural state of 10_state.md R20 is `gen` alone. `cfg` is its fixed configuration (log 2),
`pending` and `responses` are the host's side of the two ports (logs 5 and 6). -/
structure State where
  /-- `WY_INC`, `WY_MASK`, `ALG` (00_scope.md R6 to R9): never written -/
  cfg : Config
  /-- `some` exactly when `INIT = 1`; with `INIT = 0`, `S` and `WSEL` have no value (R26, R31; log 1) -/
  gen : Option Generator
  /-- what the host still presents, first to last (20_memory.md R46) -/
  pending : List HostInput
  /-- the responses produced, oldest first (20_memory.md R47, 70_reset_and_hazards.md R170) -/
  responses : List Response
  deriving DecidableEq, Repr

/-- The lifecycle flag `INIT` (10_state.md R26). -/
def State.INIT (s : State) : Bool := s.gen.isSome

/-- Right after `reset` (70_reset_and_hazards.md R156): `INIT = 0`, `S` and `WSEL` without value, no response outstanding, nothing
presented yet. The configuration is the spec's default profile (00_scope.md R8; logs 3 and 4). -/
def State.reset : State := ⟨Config.doc, none, [], []⟩

/-- Reasons for the machine to stop: there are none. Every operation "always completes" (70_reset_and_hazards.md R167), no other
error exists (60_exceptions.md R137), and a status other than OK is a response after which the block goes on (R134). -/
inductive Fault where
  deriving DecidableEq, Repr

/-- Reasons to give an instruction no meaning. -/
inductive Refusal where
  /-- The command of this mnemonic has no meaning yet: answered by an arm of `exec` only, and by none now. Safe. -/
  | notModelled (mnemonic : String)
  deriving DecidableEq, Repr

end Sys2Proof.Machine
end

