-- ==== Sys2Proof/Machine/Flags.lean ====
section
/-! DEFINITION. The block has one flag, `INIT` (10_state.md R27), and no condition codes; here stand the status field of a response
and its bits. -/

namespace Sys2Proof.Machine

/-- The status codes (60_exceptions.md R130). -/
def statusCode (st : Status) : BitVec 2 :=
  match st with
  | .ok => 0
  | .invalidRange => 1
  | .notConstructed => 2
  | .illegalCommand => 3

/-- The 66 bits of a response: `data` at [63:0], `status` at [65:64] (30_encoding.md R60). -/
def responseBits (r : Response) : ResponseBits := statusCode r.status ++ r.data

/-- The 8 bytes of a response's data, least significant first (20_memory.md R42). -/
def responseDataBytes (r : Response) : List Byte := (List.range 8).map (byteAt r.data)

end Sys2Proof.Machine
end

