-- ==== Sys2Proof/Machine/Operands.lean ====
section
/-! DEFINITION. Every operand form (30_encoding.md R62): the output width, the low `W` bits of a 64-bit value as bound or as draw. -/

namespace Sys2Proof.Machine

/-- `W = 8 << WSEL`, the output width in bits (10_state.md R24). -/
def widthBits (wsel : BitVec 2) : Nat := 8 <<< wsel.toNat

/-- `x[W-1:0]`, a bound of GENERATE_RANGE: bits `[63:W]` of the operand field are ignored (30_encoding.md R62). -/
def boundOf (W : Nat) (x : U64) : BitVec W := x.extractLsb' 0 W

/-- `proj_W(o)`, the low-order `W` bits of the engine output (41_output_width_adapter.md R100). -/
def proj (W : Nat) (o : U64) : BitVec W := o.extractLsb' 0 W

/-- `zext_64(v)`: a result narrower than 64 bits on the data port (30_encoding.md R61). -/
def zext64 {W : Nat} (v : BitVec W) : U64 := v.setWidth 64

end Sys2Proof.Machine
end

