-- ==== Sys2Proof/Machine/Ops.lean ====
section
/-! DEFINITION. The shared operations: the engine (40_wyrand_engine.md), the output multiplexer (R90), the response of a command,
`raise` (60_exceptions.md R134), the `INIT` check (R132), the reset event (70_reset_and_hazards.md R155), and taking what the host
presents. -/

namespace Sys2Proof.Machine

/-- R79: the state update, modulo `2^64`. -/
def advance (c : Config) (s : U64) : U64 := s + c.wyInc

/-- R81: `p`, the 128-bit product of the state and the state XORed with `WY_MASK`, both widened with zero bits. -/
def mixProduct (c : Config) (s : U64) : U128 := s.setWidth 128 * (s ^^^ c.wyMask).setWidth 128

/-- R81: `mix(s)`, the product's two halves folded with XOR. -/
def mix (c : Config) (s : U64) : U64 :=
  let p := mixProduct c s
  p.extractLsb' 64 64 ^^^ p.extractLsb' 0 64

/-- 00_scope.md R9: the algorithm's `init`. -/
def algInit (c : Config) (seed : U64) : U64 :=
  match c.alg with
  | .wyrand => seed

/-- 00_scope.md R9: the algorithm's `next`, the new state and the output. For WYRAND the state is advanced first and the output is
mixed from the advanced state (40_wyrand_engine.md R80). -/
def algNext (c : Config) (s : U64) : U64 × U64 :=
  match c.alg with
  | .wyrand => (advance c s, mix c (advance c s))

/-- R80: `EngineStep()` on a generator: the generator with `S` advanced, and the output. -/
def engineStep (c : Config) (g : Generator) : Generator × U64 :=
  let r := algNext c g.S
  ({ g with S := r.1 }, r.2)

/-- The inputs of the 64-bit output multiplexer (R90). -/
inductive MuxInput where
  /-- no data: CONSTRUCT, RESEED, and every refused command -/
  | zero
  /-- the engine output, all 64 bits: NEXT -/
  | engine (o : U64)
  /-- a `W`-bit result: the adapter's for GENERATE, the sampler's for GENERATE_RANGE -/
  | field (W : Nat) (v : BitVec W)
  /-- the stored state: READ_STATE -/
  | stateReg (S : U64)
  deriving Repr

/-- R90: what the output multiplexer drives on `rsp.data`; zero when the status is not OK. -/
def outputMux (st : Status) (m : MuxInput) : U64 :=
  match st, m with
  | .ok, .zero => 0
  | .ok, .engine o => o
  | .ok, .field _ v => zext64 v
  | .ok, .stateReg S => S
  | .invalidRange, _ => 0
  | .notConstructed, _ => 0
  | .illegalCommand, _ => 0

/-- `rsp <- (status, data)`: the command's one response (30_encoding.md R60, 20_memory.md R47). -/
def respond (st : Status) (m : MuxInput) (s : State) : State :=
  { s with responses := s.responses ++ [⟨st, outputMux st m⟩] }

/-- 60_exceptions.md R134: `raise <Status>`: the response `(<Status>, 0)` and no other effect. -/
def raise (st : Status) (s : State) : State := respond st .zero s

/-- The write of `S` and `WSEL` together, with `INIT <- 1` (10_state.md R20, R26). -/
def setGenerator (g : Generator) (s : State) : State := { s with gen := some g }

/-- 60_exceptions.md R132: a command other than CONSTRUCT needs `INIT = 1`. -/
def whenConstructed (s : State) (f : Generator → State) : State :=
  match s.gen with
  | none => raise .notConstructed s
  | some g => f g

/-- 60_exceptions.md R131: what the block does with an ill-formed word. -/
def illegalCommand (s : State) : State := raise .illegalCommand s

/-- 70_reset_and_hazards.md R155: the reset event: `INIT <- 0`, `S` and `WSEL` lose their values, no response. -/
def applyReset (s : State) : State := { s with gen := none }

/-- 70_reset_and_hazards.md R170: with nothing presented the block is idle and changes nothing (log 7). -/
def idle (s : State) : State := s

/-- 20_memory.md R46: the next thing the host presents, and the state once it is taken. -/
def takeInput (s : State) : Option (HostInput × State) :=
  match s.pending with
  | [] => none
  | x :: rest => some (x, { s with pending := rest })

/-- The host presents an input before whatever else it presents. -/
def present (x : HostInput) (s : State) : State := { s with pending := x :: s.pending }

end Sys2Proof.Machine
end

