-- ==== Sys2Proof/Machine/Engine.lean ====
section
/-! DEFINITION. `wyrand_engine`: CONSTRUCT, RESEED, NEXT, READ_STATE (40_wyrand_engine.md R76, R77, R83, R84). -/

namespace Sys2Proof.Machine

/-- R76, R78: `S <- seed`, `WSEL <- wsel`, `INIT <- 1`, response `(OK, 0)`; with or without a generator before. -/
def execConstruct (wsel : BitVec 2) (seed : U64) (s : State) : Host.Outcome State Fault Refusal :=
  .next (respond .ok .zero (setGenerator ⟨algInit s.cfg seed, wsel⟩ s))

/-- R77: `S <- seed`, `WSEL` kept, response `(OK, 0)`. -/
def execReseed (seed : U64) (s : State) : Host.Outcome State Fault Refusal :=
  .next (whenConstructed s fun g => respond .ok .zero (setGenerator { g with S := algInit s.cfg seed } s))

/-- R83: one engine step, the full 64-bit output. -/
def execNext (s : State) : Host.Outcome State Fault Refusal :=
  .next (whenConstructed s fun g =>
    respond .ok (.engine (engineStep s.cfg g).2) (setGenerator (engineStep s.cfg g).1 s))

/-- R84: the response carries `S`; nothing is written. -/
def execReadState (s : State) : Host.Outcome State Fault Refusal :=
  .next (whenConstructed s fun g => respond .ok (.stateReg g.S) s)

end Sys2Proof.Machine
end

