-- ==== Sys2Proof/Machine/RangeSampler.lean ====
section
/-! DEFINITION. `range_sampler`: GENERATE_RANGE (42_range_sampler.md R114), a straight-line datapath with no loop (R110). -/

namespace Sys2Proof.Machine

/-- R111: `high - low + 1`, in `W + 1` bits. -/
def rangeSpan {W : Nat} (low high : BitVec W) : BitVec (W + 1) := high.setWidth (W + 1) - low.setWidth (W + 1) + 1

/-- R112: `v = low + (r mod span)`: unsigned remainder of the `W`-bit draw by the `W + 1`-bit span, then a `W`-bit addition. -/
def rangeValue {W : Nat} (low high r : BitVec W) : BitVec W :=
  low + (r.setWidth (W + 1) % rangeSpan low high).setWidth W

/-- R114, R113: inverted bounds end with INVALID_RANGE and no step; otherwise one engine step and its draw reduced to the range. -/
def execGenerateRange (a b : U64) (s : State) : Host.Outcome State Fault Refusal :=
  .next (whenConstructed s fun g =>
    let W := widthBits g.WSEL
    let low := boundOf W a
    let high := boundOf W b
    if high < low then raise .invalidRange s
    else
      respond .ok (.field W (rangeValue low high (proj W (engineStep s.cfg g).2)))
        (setGenerator (engineStep s.cfg g).1 s))

end Sys2Proof.Machine
end

