-- ==== Sys2Proof/Machine/WidthAdapter.lean ====
section
/-! DEFINITION. `output_width_adapter`: GENERATE (41_output_width_adapter.md R101). -/

namespace Sys2Proof.Machine

/-- R101: one engine step, the low `W` bits of its output, `W = 8 << WSEL` of the stored `WSEL`. -/
def execGenerate (s : State) : Host.Outcome State Fault Refusal :=
  .next (whenConstructed s fun g =>
    respond .ok (.field (widthBits g.WSEL) (proj (widthBits g.WSEL) (engineStep s.cfg g).2))
      (setGenerator (engineStep s.cfg g).1 s))

end Sys2Proof.Machine
end

