-- ==== Sys2Proof/Machine/Dispatch.lean ====
section
/-! DEFINITION. One arm per command (30_encoding.md R55). -/

namespace Sys2Proof.Machine

def exec (i : Instr) (s : State) : Host.Outcome State Fault Refusal :=
  match i with
  | .construct wsel seed => Sys2Proof.Machine.execConstruct wsel seed s
  | .reseed seed => Sys2Proof.Machine.execReseed seed s
  | .next => Sys2Proof.Machine.execNext s
  | .generate => Sys2Proof.Machine.execGenerate s
  | .generateRange a b => Sys2Proof.Machine.execGenerateRange a b s
  | .readState => Sys2Proof.Machine.execReadState s

end Sys2Proof.Machine
end

