-- ==== Sys2Proof/Machine/Step.lean ====
section
/-! DEFINITION. One step: the block takes the next thing the host presents (20_memory.md R46). A command word is decoded and run,
or answered with ILLEGAL_COMMAND (30_encoding.md R63, 60_exceptions.md R131); a reset is applied (70_reset_and_hazards.md R155);
with nothing presented the block is idle. -/

namespace Sys2Proof.Machine

def step (s : State) : Host.Outcome State Fault Refusal :=
  match takeInput s with
  | none => .next (idle s)
  | some (.reset, t) => .next (applyReset t)
  | some (.command w, t) =>
    match decode w with
    | .ok i => exec i t
    | .error _ => .next (illegalCommand t)

/-- The host presents the table's word as its next command: `step` takes it first. -/
def State.withFetchWord (s : State) (nbits w : Nat) : State := present (.command (tableWord nbits w)) s

end Sys2Proof.Machine
end

