-- ==== Sys2Proof/Machine/Instances.lean ====
section
/-! DEFINITION. Several instances: a product of independent single-instance models (10_state.md R33), stepped in any order
(20_memory.md R48). -/

namespace Sys2Proof.Machine

/-- Instance `k` takes its next step, the others none. -/
def stepInstance {n : Nat} (k : Fin n) (v : Vector State n) : Host.Outcome (Vector State n) Fault Refusal :=
  match step v[k] with
  | .next t => .next (v.set k t)
  | .fault r => .fault r
  | .refused r => .refused r

/-- The instances step in the order a schedule names them. -/
def stepInstances {n : Nat} : List (Fin n) → Vector State n → Host.Outcome (Vector State n) Fault Refusal
  | [], v => .next v
  | k :: ks, v =>
    match stepInstance k v with
    | .next u => stepInstances ks u
    | .fault r => .fault r
    | .refused r => .refused r

end Sys2Proof.Machine
end

