-- ==== Sys2Proof/Safety.lean ====
section
/-! DEFINITION. The terms claims are stated in: runs, the engine steps a command takes (10_state.md R32), merged command lists
(70_reset_and_hazards.md R163), the invariant, and what counts as a safe run. -/

namespace Sys2Proof.Machine

/-- `n` steps of the machine, stopping at a fault or a refusal. -/
def runFor (n : Nat) (s : State) : Host.Outcome State Fault Refusal := Host.Core.run Sys2Proof.core n s

/-- A safe run never stops: any number of steps ends in a next state (70_reset_and_hazards.md R167). -/
def SafeFrom (s : State) : Prop := ∀ n, ∃ t, runFor n s = .next t

/-- What the host presents when it presents the words of a list in order. -/
def asCommands (ws : List CommandBits) : List HostInput := ws.map .command

/-- Whether an input is a command (and so is owed one response, 20_memory.md R47); a reset is not. -/
def HostInput.isCommand (x : HostInput) : Bool :=
  match x with
  | .reset => false
  | .command _ => true

/-- The number of responses owed to a list of inputs (20_memory.md R47). -/
def commandCount (xs : List HostInput) : Nat := xs.countP HostInput.isCommand

/-- The engine steps a command takes when it ends with a status (10_state.md R32, last column; 70_reset_and_hazards.md R164). -/
def engineStepsOf (i : Instr) (st : Status) : Nat :=
  match i with
  | .construct _ _ => 0
  | .reseed _ => 0
  | .next => if st = .ok then 1 else 0
  | .generate => if st = .ok then 1 else 0
  | .generateRange _ _ => if st = .ok then 1 else 0
  | .readState => 0

/-- The same for a command word; an ill-formed one takes none. -/
def wordSteps (w : CommandBits) (st : Status) : Nat :=
  match decode w with
  | .ok i => engineStepsOf i st
  | .error _ => 0

/-- The engine steps read off a list of words and their responses (42_range_sampler.md R119). -/
def totalSteps : List CommandBits → List Response → Nat
  | w :: ws, r :: rs => wordSteps w r.status + totalSteps ws rs
  | [], _ => 0
  | _ :: _, [] => 0

/-- Whether a command loads `S` from the host: CONSTRUCT and RESEED. -/
def loadsSeed (i : Instr) : Bool :=
  match i with
  | .construct _ _ => true
  | .reseed _ => true
  | .next => false
  | .generate => false
  | .generateRange _ _ => false
  | .readState => false

/-- Whether a command word is a CONSTRUCT or a RESEED. -/
def wordLoadsSeed (w : CommandBits) : Bool :=
  match decode w with
  | .ok i => loadsSeed i
  | .error _ => false

/-- One sequence of commands made from several requesters' lists: an interleaving that keeps each list's order
(20_memory.md R50, 70_reset_and_hazards.md R163). -/
inductive Merge {α : Type} : List (List α) → List α → Prop where
  | done (ls : List (List α)) (h : ∀ l ∈ ls, l = []) : Merge ls []
  | pick (before : List (List α)) (x : α) (l : List α) (after : List (List α)) (zs : List α)
      (h : Merge (before ++ l :: after) zs) : Merge (before ++ (x :: l) :: after) (x :: zs)

/-- `t` is `s` with the generator written and one response appended: what every command leaves. -/
def AnswersOnce (s t : State) : Prop := ∃ gen r, t = { s with gen := gen, responses := s.responses ++ [r] }

/-- The invariant, for a configuration `c` and a number `n` of responses owed in all: the configuration is still `c` and its
increment is odd (00_scope.md R6, 70_reset_and_hazards.md R156); the responses produced and the commands still to come make `n`
(20_memory.md R47); a response that is not OK carries no data (30_encoding.md R61). -/
structure StateInv (c : Config) (n : Nat) (s : State) : Prop where
  cfg : s.cfg = c
  odd : c.wf = true
  owed : s.responses.length + commandCount s.pending = n
  refusedData : ∀ r ∈ s.responses, r.status ≠ .ok → r.data = 0

end Sys2Proof.Machine
end

