-- ==== Sys2Proof/Certificates/Slice0/Obligations.lean ====
section
/-! DEFINITION. The statements for the provers, file by file of spec/. "Derived" in a docstring: the spec marks
the claim as its own inference, or the statement holds only a part of the rules named. The rest hold the rules they name whole. -/

open Sys2Proof Sys2Proof.Machine

/-! ### 30_encoding.md and 20_memory.md: words and bytes -/

/-- 30_encoding.md R68: the match-and-mask form of the decoder, on every word, and the nine control bytes that decode. -/
def Obligations.DecodeByMaskAndMatch : Prop :=
  ∀ w : CommandBits,
    (w &&& 0xE7 = 0x01 → decode w = .ok (.construct (w.extractLsb' 3 2) (w.extractLsb' 8 64))) ∧
    (w &&& 0xFF = 0x02 → decode w = .ok (.reseed (w.extractLsb' 8 64))) ∧
    (w &&& 0xFF = 0x03 → decode w = .ok .next) ∧
    (w &&& 0xFF = 0x04 → decode w = .ok .generate) ∧
    (w &&& 0xFF = 0x05 → decode w = .ok (.generateRange (w.extractLsb' 8 64) (w.extractLsb' 72 64))) ∧
    (w &&& 0xFF = 0x06 → decode w = .ok .readState) ∧
    (w &&& 0xE7 ≠ 0x01 → w &&& 0xFF ≠ 0x02 → w &&& 0xFF ≠ 0x03 → w &&& 0xFF ≠ 0x04 → w &&& 0xFF ≠ 0x05 →
      w &&& 0xFF ≠ 0x06 → ∃ e, decode w = .error e) ∧
    ((∃ i, decode w = .ok i) ↔
      w.setWidth 8 ∈ ([0x01, 0x09, 0x11, 0x19, 0x02, 0x03, 0x04, 0x05, 0x06] : List (BitVec 8)))

/-- 30_encoding.md R63: a word selects a command exactly when its three fields pass the three checks; legality depends on the
control byte alone; every other word is answered with ILLEGAL_COMMAND and changes nothing, in any state. -/
def Obligations.LegalWordsAreTheCommands : Prop :=
  ∀ w : CommandBits,
    ((∃ i, decode w = .ok i) ↔
      w.extractLsb' 5 3 = 0 ∧ 1 ≤ (w.extractLsb' 0 3).toNat ∧ (w.extractLsb' 0 3).toNat ≤ 6 ∧
        (w.extractLsb' 3 2 = 0 ∨ w.extractLsb' 0 3 = 1)) ∧
    (∀ v : CommandBits, v.setWidth 8 = w.setWidth 8 → ((∃ i, decode v = .ok i) ↔ ∃ i, decode w = .ok i)) ∧
    ((∃ i, decode w = .ok i) ∨
      ∀ s, step (present (.command w) s) = .next { s with responses := s.responses ++ [⟨.illegalCommand, 0⟩] })

/-- 30_encoding.md R64, R65, R66 and 60_exceptions.md R131: a reserved opcode, a non-zero `rsv`, a width outside CONSTRUCT: no
command, and the response is ILLEGAL_COMMAND with no effect, constructed or not. -/
def Obligations.ReservedEncodingsAreIllegal : Prop :=
  ∀ (w : CommandBits) (s : State),
    (w.extractLsb' 0 3 = 0 ∨ w.extractLsb' 0 3 = 7 ∨ w.extractLsb' 5 3 ≠ 0 ∨
      (w.extractLsb' 3 2 ≠ 0 ∧ w.extractLsb' 0 3 ≠ 1)) →
    (∃ e, decode w = .error e) ∧
      step (present (.command w) s) = .next { s with responses := s.responses ++ [⟨.illegalCommand, 0⟩] }

/-- Derived (30_encoding.md R67, R68, R70): decoding an encoded command gives it back, with every operand at every value: as a word, as the byte string of the word, and
through the numbering of the opcode table. -/
def Obligations.DecodeEncodeRoundTrip : Prop :=
  ∀ i : Instr, decode (encode i) = .ok i ∧ decodeBytes (wordBytes (encode i)) = .ok i ∧
    decodeTableWord 136 (encode i).toNat = some i

/-- Derived (30_encoding.md R67): the canonical word of what a word decodes to is that word with its ignored bits cleared. -/
def Obligations.EncodeClearsIgnoredBits : Prop :=
  ∀ w : CommandBits,
    (∀ wsel seed, decode w = .ok (.construct wsel seed) → encode (.construct wsel seed) = w &&& 0xFFFFFFFFFFFFFFFFFF) ∧
    (∀ seed, decode w = .ok (.reseed seed) → encode (.reseed seed) = w &&& 0xFFFFFFFFFFFFFFFFFF) ∧
    (decode w = .ok .next → encode .next = w &&& 0xFF) ∧
    (decode w = .ok .generate → encode .generate = w &&& 0xFF) ∧
    (∀ a b, decode w = .ok (.generateRange a b) → encode (.generateRange a b) = w) ∧
    (decode w = .ok .readState → encode .readState = w &&& 0xFF)

/-- Derived (30_encoding.md section 5, R67): unused operand fields have no effect on legality, state or response, nor do a bound's bits above the width;
canonical words decode injectively, words at large do not. -/
def Obligations.UnusedOperandFieldsIgnored : Prop :=
  (∀ (v w : CommandBits) (s : State), v.setWidth 8 = w.setWidth 8 →
    ((w.extractLsb' 0 3 = 1 ∨ w.extractLsb' 0 3 = 2) → v.extractLsb' 8 64 = w.extractLsb' 8 64 →
      decode v = decode w ∧ step (present (.command v) s) = step (present (.command w) s)) ∧
    ((w.extractLsb' 0 3 = 3 ∨ w.extractLsb' 0 3 = 4 ∨ w.extractLsb' 0 3 = 6) →
      decode v = decode w ∧ step (present (.command v) s) = step (present (.command w) s)) ∧
    (w.extractLsb' 0 3 = 5 →
      (∀ g, s.gen = some g →
        (v.extractLsb' 8 64).toNat % 2 ^ (8 <<< g.WSEL.toNat) = (w.extractLsb' 8 64).toNat % 2 ^ (8 <<< g.WSEL.toNat) ∧
        (v.extractLsb' 72 64).toNat % 2 ^ (8 <<< g.WSEL.toNat) = (w.extractLsb' 72 64).toNat % 2 ^ (8 <<< g.WSEL.toNat)) →
      step (present (.command v) s) = step (present (.command w) s))) ∧
  (∀ i j : Instr, decode (encode i) = decode (encode j) → encode i = encode j) ∧
  (∃ v w : CommandBits, v ≠ w ∧ ∃ i, decode v = .ok i ∧ decode w = .ok i)

/-- 30_encoding.md R56: a command word as a number, and its fields: nothing of a word is dropped. -/
def Obligations.CommandWordAsNumber : Prop :=
  (∀ c : CmdWord, (packFields c).toNat =
    c.b.toNat * 2 ^ 72 + c.a.toNat * 2 ^ 8 + c.rsv.toNat * 2 ^ 5 + c.wsel.toNat * 2 ^ 3 + c.op.toNat) ∧
  (∀ w : CommandBits, packFields (fieldsOf w) = w)

/-- 30_encoding.md R72: the worked encodings. -/
def Obligations.WorkedWordsDecode : Prop :=
  encode (.construct 1 0xDEADBEEF) = 0x000000000000000000000000DEADBEEF09 ∧
  decode 0x000000000000000000000000DEADBEEF09 = .ok (.construct 1 0xDEADBEEF) ∧
  encode (.generateRange 0xC0 0xDE) = 0x00000000000000DE00000000000000C005 ∧
  decode 0x00000000000000DE00000000000000C005 = .ok (.generateRange 0xC0 0xDE) ∧
  encode .generate = 0x0000000000000000000000000000000004 ∧
  decode 0x0000000000000000000000000000000004 = .ok .generate ∧
  decode 0x000000000000000000000000000000000C = .error .widthOutsideConstruct ∧
  decode 0x0000000000000000000000000000000000 = .error .reservedOpcode

/-- 20_memory.md R42: byte `i` of a word's byte string is bits `[8i + 7 : 8i]`, 17 bytes in all, and decoding the bytes is decoding the
word; a response's data is 8 bytes, least significant first. -/
def Obligations.ByteStringsAreLittleEndian : Prop :=
  (∀ w : CommandBits, (wordBytes w).length = 17 ∧
    (∀ k, k < 17 → (wordBytes w)[k]? = some (w.extractLsb' (8 * k) 8)) ∧
    bytesNumber (wordBytes w) = w.toNat ∧ decodeBytes (wordBytes w) = decode w) ∧
  (∀ r : Response, (responseDataBytes r).length = 8 ∧
    (∀ k, k < 8 → (responseDataBytes r)[k]? = some (r.data.extractLsb' (8 * k) 8)) ∧
    bytesNumber (responseDataBytes r) = r.data.toNat)

/-- 30_encoding.md R60: every command returns one response; its 66 bits are the data below the status, coded 0 to 3. -/
def Obligations.ResponseWordFields : Prop :=
  (∀ (s : State) (w : CommandBits), ∃ r t, step (present (.command w) s) = .next t ∧ t.responses = s.responses ++ [r]) ∧
  (∀ r : Response, (responseBits r).extractLsb' 0 64 = r.data ∧
    (r.status = .ok → (responseBits r).extractLsb' 64 2 = 0) ∧
    (r.status = .invalidRange → (responseBits r).extractLsb' 64 2 = 1) ∧
    (r.status = .notConstructed → (responseBits r).extractLsb' 64 2 = 2) ∧
    (r.status = .illegalCommand → (responseBits r).extractLsb' 64 2 = 3))

/-- 30_encoding.md R71: RESTORE is CONSTRUCT; GENERATE_ONE returns its operand at the generator's width and takes one engine step. -/
def Obligations.PseudoCommandsExpand : Prop :=
  (∀ wsel x, pseudoRestore wsel x = .construct wsel x) ∧
  (∀ x, pseudoGenerateOne x = .generateRange x x) ∧
  (∀ (s : State) (g : Generator) (x : U64), s.gen = some g →
    exec (pseudoGenerateOne x) s = .next { s with
      gen := some { g with S := g.S + s.cfg.wyInc },
      responses := s.responses ++ [⟨.ok, BitVec.ofNat 64 (x.toNat % 2 ^ (8 <<< g.WSEL.toNat))⟩] })

/-! ### 40_wyrand_engine.md: loading, stepping and reading the state -/

/-- 40_wyrand_engine.md R76, R78: CONSTRUCT's encoding, and its effect in every state, constructed or not: the seed is stored
unchanged, the width stored, `INIT` set, the response `(OK, 0)`, nothing else; with a non-zero `rsv` it is ILLEGAL_COMMAND. -/
def Obligations.ConstructStoresSeedAndWidth : Prop :=
  ∀ (s : State) (wsel : BitVec 2) (seed b : U64),
    decode (b ++ seed ++ (0 : BitVec 3) ++ wsel ++ (1 : BitVec 3)) = .ok (.construct wsel seed) ∧
    exec (.construct wsel seed) s =
      .next { s with gen := some ⟨seed, wsel⟩, responses := s.responses ++ [⟨.ok, 0⟩] } ∧
    (∀ rsv : BitVec 3, rsv ≠ 0 →
      step (present (.command (b ++ seed ++ rsv ++ wsel ++ (1 : BitVec 3))) s) =
        .next { s with responses := s.responses ++ [⟨.illegalCommand, 0⟩] })

/-- 40_wyrand_engine.md R77: RESEED's encoding and effect: `S` is the seed, the width is kept, no engine step; refused before
construction. -/
def Obligations.ReseedKeepsWidth : Prop :=
  ∀ (s : State) (seed b : U64),
    decode (b ++ seed ++ (0x02 : BitVec 8)) = .ok (.reseed seed) ∧
    (∀ g, s.gen = some g →
      exec (.reseed seed) s =
        .next { s with gen := some ⟨seed, g.WSEL⟩, responses := s.responses ++ [⟨.ok, 0⟩] }) ∧
    (s.gen = none →
      exec (.reseed seed) s = .next { s with responses := s.responses ++ [⟨.notConstructed, 0⟩] })

/-- Derived (R77: "After `RESEED x` the generator behaves exactly as after `CONSTRUCT.w x` with `w` the width it already has"). -/
def Obligations.ReseedActsAsConstruct : Prop :=
  ∀ (s : State) (g : Generator) (x : U64), s.gen = some g → exec (.reseed x) s = exec (.construct g.WSEL x) s

/-- 40_wyrand_engine.md R79, R80: one engine step adds `WY_INC` modulo `2^64` and returns the mix of the updated state; NEXT, GENERATE
and an accepted GENERATE_RANGE take exactly this step, and write nothing else of the generator. -/
def Obligations.EngineStepAdvancesThenMixes : Prop :=
  (∀ (c : Config) (g : Generator),
    (engineStep c g).1.S.toNat = (g.S.toNat + c.wyInc.toNat) % 2 ^ 64 ∧
    (engineStep c g).1.WSEL = g.WSEL ∧
    (engineStep c g).2 = mix c (engineStep c g).1.S) ∧
  (∀ (s t : State) (g : Generator), s.gen = some g →
    (exec .next s = .next t → t.gen = some (engineStep s.cfg g).1) ∧
    (exec .generate s = .next t → t.gen = some (engineStep s.cfg g).1) ∧
    (∀ a b, a.toNat % 2 ^ (8 <<< g.WSEL.toNat) ≤ b.toNat % 2 ^ (8 <<< g.WSEL.toNat) →
      exec (.generateRange a b) s = .next t → t.gen = some (engineStep s.cfg g).1))

/-- 40_wyrand_engine.md R81: `mix` is the exact 128-bit product of the state and the masked state, its halves folded with XOR; with the
all-ones mask the second factor is `2^64 - 1 - s`. -/
def Obligations.MixFoldsExactProduct : Prop :=
  ∀ (c : Config) (s : U64),
    (mixProduct c s).toNat = s.toNat * (s ^^^ c.wyMask).toNat ∧
    (mix c s).toNat =
      (s.toNat * (s ^^^ c.wyMask).toNat / 2 ^ 64) ^^^ (s.toNat * (s ^^^ c.wyMask).toNat % 2 ^ 64) ∧
    (c.wyMask = 0xFFFFFFFFFFFFFFFF → (s ^^^ c.wyMask).toNat = 2 ^ 64 - 1 - s.toNat)

/-- 40_wyrand_engine.md R83: NEXT's encoding, result and effect; it does not depend on the width. -/
def Obligations.NextReturnsMixedState : Prop :=
  ∀ (s : State) (a b : U64),
    decode (b ++ a ++ (0x03 : BitVec 8)) = .ok .next ∧
    (∀ g, s.gen = some g →
      exec .next s = .next { s with
        gen := some ⟨g.S + s.cfg.wyInc, g.WSEL⟩,
        responses := s.responses ++ [⟨.ok, mix s.cfg (g.S + s.cfg.wyInc)⟩] }) ∧
    (s.gen = none → exec .next s = .next { s with responses := s.responses ++ [⟨.notConstructed, 0⟩] })

/-- 40_wyrand_engine.md R84: READ_STATE's encoding, result and frame: `S` is returned and nothing is written; two in a row return the
same; straight after CONSTRUCT it returns the seed. -/
def Obligations.ReadStateReturnsState : Prop :=
  ∀ (s : State) (a b : U64),
    decode (b ++ a ++ (0x06 : BitVec 8)) = .ok .readState ∧
    (∀ g, s.gen = some g →
      exec .readState s = .next { s with responses := s.responses ++ [⟨.ok, g.S⟩] } ∧
      ∀ t, exec .readState s = .next t →
        exec .readState t = .next { s with responses := s.responses ++ [⟨.ok, g.S⟩, ⟨.ok, g.S⟩] }) ∧
    (s.gen = none → exec .readState s = .next { s with responses := s.responses ++ [⟨.notConstructed, 0⟩] }) ∧
    (∀ wsel seed t, exec (.construct wsel seed) s = .next t →
      exec .readState t = .next { t with responses := t.responses ++ [⟨.ok, seed⟩] })

/-- Derived (R86: "`S = x +_64 (k * WY_INC)`", "the `k`-th of those steps returned `mix(x +_64 k * WY_INC)`"): after any words that load
no seed, legal or not, the state is the seed plus `k` increments, `k` the engine steps read off the words and their statuses, and
each NEXT among them answered the mix at its own step's count. -/
def Obligations.StateClosedForm : Prop :=
  ∀ (s : State) (x : U64) (wsel : BitVec 2) (ws : List CommandBits),
    s.gen = some ⟨x, wsel⟩ → s.pending = asCommands ws → (∀ v ∈ ws, wordLoadsSeed v = false) →
    ∃ (t : State) (rs : List Response), runFor ws.length s = .next t ∧ rs.length = ws.length ∧ t.responses = s.responses ++ rs ∧ t.pending = [] ∧
      t.gen = some ⟨x + BitVec.ofNat 64 (totalSteps ws rs) * s.cfg.wyInc, wsel⟩ ∧
      ∀ j w, ws[j]? = some w → decode w = .ok .next →
        rs[j]? = some (Response.mk .ok (mix s.cfg
          (x + BitVec.ofNat 64 (totalSteps (ws.take (j + 1)) (rs.take (j + 1))) * s.cfg.wyInc)))

/-- Derived (R87: "the sequence of states visits all `2^64` values before it returns to the seed"): for an odd increment, a run of
`k` NEXT commands ends in the seed's state exactly when `2^64` divides `k`, and every state is reached within `2^64` steps. -/
def Obligations.StateSequenceHasFullPeriod : Prop :=
  ∀ (s : State) (x : U64) (wsel : BitVec 2), s.cfg.wf = true → s.gen = some ⟨x, wsel⟩ →
    (∀ k, ∃ t g, runFor k { s with pending := List.replicate k (.command (encode .next)) } = .next t ∧
      t.gen = some g ∧ (g.S = x ↔ 2 ^ 64 ∣ k)) ∧
    (∀ y : U64, ∃ k, k < 2 ^ 64 ∧ ∃ t, t.gen = some ⟨y, wsel⟩ ∧
      runFor k { s with pending := List.replicate k (.command (encode .next)) } = .next t)

/-- Derived (R88: "the engine does not stick at it"; "`mix(0) = 0` and `mix(WY_MASK) = 0`"): after a zero seed the first step reaches
`WY_INC`, not zero, and answers its mix, for every odd increment; the two zeros of `mix` R88 names. -/
def Obligations.ZeroSeedAdvances : Prop :=
  (∀ (s t : State) (wsel : BitVec 2), s.cfg.wf = true → exec (.construct wsel 0) s = .next t →
    s.cfg.wyInc ≠ 0 ∧
    exec .next t = .next { t with
      gen := some ⟨s.cfg.wyInc, wsel⟩, responses := t.responses ++ [⟨.ok, mix s.cfg s.cfg.wyInc⟩] }) ∧
  (∀ c : Config, mix c 0 = 0 ∧ mix c c.wyMask = 0)

/-- Derived (70_reset_and_hazards.md R165: the seeds `0 -_64 WY_INC` and `WY_MASK -_64 WY_INC` "both give 0 as the first output"). -/
def Obligations.DistinctSeedsBothAnswerZero : Prop :=
  ∀ (s : State) (wsel : BitVec 2), s.cfg.wyMask ≠ 0 →
    0 - s.cfg.wyInc ≠ s.cfg.wyMask - s.cfg.wyInc ∧
    ∀ seed, seed = 0 - s.cfg.wyInc ∨ seed = s.cfg.wyMask - s.cfg.wyInc →
      ∀ t, exec (.construct wsel seed) s = .next t →
        exec .next t = .next { t with
          gen := some ⟨seed + s.cfg.wyInc, wsel⟩, responses := t.responses ++ [⟨.ok, 0⟩] }

/-- Derived (R85, restore continuity): a generator restored by CONSTRUCT from what READ_STATE answered, at the same width, on any
instance of the same configuration, or by RESEED on a generator of that width, answers every later input as the original does. -/
def Obligations.RestoreContinuesSequence : Prop :=
  ∀ (s a u b : State) (g : Generator) (x : U64) (xs : List HostInput),
    s.gen = some g → exec .readState s = .next a → a.responses = s.responses ++ [⟨.ok, x⟩] → u.cfg = s.cfg →
    (exec (.construct g.WSEL x) u = .next b ∨
      ∃ h, u.gen = some h ∧ h.WSEL = g.WSEL ∧ exec (.reseed x) u = .next b) →
    ∀ n, ∃ a' b' rs, runFor n { a with pending := xs } = .next a' ∧ runFor n { b with pending := xs } = .next b' ∧
      a'.responses = a.responses ++ rs ∧ b'.responses = b.responses ++ rs ∧ a'.gen = b'.gen

/-- 40_wyrand_engine.md R90: what the output multiplexer drives on the data of each command's response. -/
def Obligations.OutputMuxByCommand : Prop :=
  ∀ (i : Instr) (s t : State), exec i s = .next t →
    ∃ r, t.responses = s.responses ++ [r] ∧
      (r.status ≠ .ok → r.data = 0) ∧
      (r.status = .ok →
        (∀ wsel x, i = .construct wsel x → r.data = 0) ∧
        (∀ x, i = .reseed x → r.data = 0) ∧
        (i = .next → ∃ g, s.gen = some g ∧ r.data = mix s.cfg (g.S + s.cfg.wyInc)) ∧
        (i = .generate → ∃ g, s.gen = some g ∧
          r.data.toNat = (mix s.cfg (g.S + s.cfg.wyInc)).toNat % 2 ^ (8 <<< g.WSEL.toNat)) ∧
        (∀ a b, i = .generateRange a b → ∃ g, s.gen = some g ∧
          r.data.toNat = (rangeValue (boundOf (widthBits g.WSEL) a) (boundOf (widthBits g.WSEL) b)
            (proj (widthBits g.WSEL) (mix s.cfg (g.S + s.cfg.wyInc)))).toNat) ∧
        (i = .readState → ∃ g, s.gen = some g ∧ r.data = g.S))

/-! ### 41_output_width_adapter.md -/

/-- 41_output_width_adapter.md R100, R101, R102: GENERATE's encoding; one engine step whatever the width; the low `W` bits of its
output, zero-extended; refused before construction. -/
def Obligations.GenerateReturnsLowBits : Prop :=
  ∀ (s : State) (a b : U64),
    decode (b ++ a ++ (0x04 : BitVec 8)) = .ok .generate ∧
    (∀ g, s.gen = some g →
      exec .generate s = .next { s with
        gen := some ⟨g.S + s.cfg.wyInc, g.WSEL⟩,
        responses := s.responses ++
          [⟨.ok, BitVec.ofNat 64 ((mix s.cfg (g.S + s.cfg.wyInc)).toNat % 2 ^ (8 <<< g.WSEL.toNat))⟩] }) ∧
    (s.gen = none → exec .generate s = .next { s with responses := s.responses ++ [⟨.notConstructed, 0⟩] })

/-- Derived (R103: "GENERATE and NEXT return the same data from the same state" at width 64). -/
def Obligations.WidthSixtyFourGenerateIsNext : Prop :=
  ∀ (s : State) (g : Generator), s.gen = some g → g.WSEL = 3 → exec .generate s = exec .next s

/-- Derived (R104): two generators with one seed and widths `W1 <= W2`, each given `n` GENERATE commands, end in the same `S`, and each
result of the narrower is the low `W1` bits of the wider's. -/
def Obligations.NarrowResultsAreLowBitsOfWide : Prop :=
  ∀ (s u : State) (x : U64) (w1 w2 : BitVec 2) (n : Nat), s.cfg = u.cfg → s.gen = some ⟨x, w1⟩ → u.gen = some ⟨x, w2⟩ →
    w1 ≤ w2 → s.pending = List.replicate n (.command (encode .generate)) →
    u.pending = List.replicate n (.command (encode .generate)) →
    ∃ (t v : State) (rs qs : List Response) (y : U64), runFor n s = .next t ∧ runFor n u = .next v ∧ t.gen = some ⟨y, w1⟩ ∧ v.gen = some ⟨y, w2⟩ ∧
      t.responses = s.responses ++ rs ∧ v.responses = u.responses ++ qs ∧ rs.length = n ∧ qs.length = n ∧
      ∀ (j : Nat) (r q : Response), rs[j]? = some r → qs[j]? = some q →
        r.status = .ok ∧ q.status = .ok ∧ r.data.toNat = q.data.toNat % 2 ^ (8 <<< w1.toNat)

/-- Derived (R105, width containment): GENERATE's result is below `2^W`. -/
def Obligations.GenerateFitsWidth : Prop :=
  ∀ (s t : State) (g : Generator), s.gen = some g → exec .generate s = .next t →
    ∃ r, t.responses = s.responses ++ [r] ∧ r.status = .ok ∧ r.data.toNat ≤ 2 ^ (8 <<< g.WSEL.toNat) - 1

/-! ### 42_range_sampler.md -/

/-- 42_range_sampler.md R111: the span of ordered bounds is exact in `W + 1` bits, between 1 and `2^W`, and `2^W` only for the full
range. -/
def Obligations.SpanIsExact : Prop :=
  ∀ (W : Nat) (low high : BitVec W), low ≤ high →
    (rangeSpan low high).toNat = high.toNat - low.toNat + 1 ∧
    1 ≤ (rangeSpan low high).toNat ∧ (rangeSpan low high).toNat ≤ 2 ^ W ∧
    ((rangeSpan low high).toNat = 2 ^ W ↔ low.toNat = 0 ∧ high.toNat = 2 ^ W - 1)

/-- 42_range_sampler.md R112, R113, R114: GENERATE_RANGE's encoding; refused before construction; INVALID_RANGE with no effect when
`low > high` on the `W`-bit bounds; otherwise one engine step and `low + (r mod (high - low + 1))` in exact arithmetic, `r` the
`W`-bit draw. -/
def Obligations.GenerateRangeReducesDraw : Prop :=
  ∀ (s : State) (a b : U64),
    decode (b ++ a ++ (0x05 : BitVec 8)) = .ok (.generateRange a b) ∧
    (s.gen = none →
      exec (.generateRange a b) s = .next { s with responses := s.responses ++ [⟨.notConstructed, 0⟩] }) ∧
    (∀ g, s.gen = some g →
      b.toNat % 2 ^ (8 <<< g.WSEL.toNat) < a.toNat % 2 ^ (8 <<< g.WSEL.toNat) →
      exec (.generateRange a b) s = .next { s with responses := s.responses ++ [⟨.invalidRange, 0⟩] }) ∧
    (∀ g low high r, s.gen = some g →
      low = a.toNat % 2 ^ (8 <<< g.WSEL.toNat) → high = b.toNat % 2 ^ (8 <<< g.WSEL.toNat) → low ≤ high →
      r = (mix s.cfg (g.S + s.cfg.wyInc)).toNat % 2 ^ (8 <<< g.WSEL.toNat) →
      exec (.generateRange a b) s = .next { s with
        gen := some ⟨g.S + s.cfg.wyInc, g.WSEL⟩,
        responses := s.responses ++ [⟨.ok, BitVec.ofNat 64 (low + r % (high - low + 1))⟩] })

/-- 42_range_sampler.md R122 and 60_exceptions.md R133: inverted bounds are not swapped, not reduced, and do not stop the block: status
INVALID_RANGE, data 0, state as it was, and the next command is answered as if the refused one had not been sent. -/
def Obligations.InvertedBoundsRefused : Prop :=
  ∀ (s : State) (g : Generator) (a b : U64), s.gen = some g →
    b.toNat % 2 ^ (8 <<< g.WSEL.toNat) < a.toNat % 2 ^ (8 <<< g.WSEL.toNat) →
    ∃ t, exec (.generateRange a b) s = .next t ∧
      t = { s with responses := s.responses ++ [⟨.invalidRange, 0⟩] } ∧
      ∀ i, ∃ gen r, exec i s = .next { s with gen := gen, responses := s.responses ++ [r] } ∧
        exec i t = .next { s with gen := gen, responses := s.responses ++ [⟨.invalidRange, 0⟩, r] }

/-- Derived (R115, range containment): an accepted GENERATE_RANGE answers a value between its `W`-bit bounds. -/
def Obligations.RangeResultWithinBounds : Prop :=
  ∀ (s t : State) (g : Generator) (a b : U64) (r : Response), s.gen = some g →
    exec (.generateRange a b) s = .next t → t.responses = s.responses ++ [r] → r.status = .ok →
    a.toNat % 2 ^ (8 <<< g.WSEL.toNat) ≤ r.data.toNat ∧ r.data.toNat ≤ b.toNat % 2 ^ (8 <<< g.WSEL.toNat)

/-- Derived (R116): the full range returns what GENERATE returns and leaves the same state. -/
def Obligations.FullRangeIsGenerate : Prop :=
  ∀ (s : State) (g : Generator) (a b : U64), s.gen = some g →
    a.toNat % 2 ^ (8 <<< g.WSEL.toNat) = 0 → b.toNat % 2 ^ (8 <<< g.WSEL.toNat) = 2 ^ (8 <<< g.WSEL.toNat) - 1 →
    exec (.generateRange a b) s = exec .generate s

/-- 42_range_sampler.md R117: `low = high` answers that value in every state, and still takes one engine step. -/
def Obligations.SingleValueRangeStillSteps : Prop :=
  ∀ (s : State) (g : Generator) (x : U64), s.gen = some g →
    exec (.generateRange x x) s = .next { s with
      gen := some ⟨g.S + s.cfg.wyInc, g.WSEL⟩,
      responses := s.responses ++ [⟨.ok, BitVec.ofNat 64 (x.toNat % 2 ^ (8 <<< g.WSEL.toNat))⟩] }

/-- 42_range_sampler.md R121: bits of the bounds above the width take no part; at width 64 every bit takes part. -/
def Obligations.BoundBitsAboveWidthIgnored : Prop :=
  (∀ (s : State) (g : Generator) (a b a' b' : U64), s.gen = some g →
    a.toNat % 2 ^ (8 <<< g.WSEL.toNat) = a'.toNat % 2 ^ (8 <<< g.WSEL.toNat) →
    b.toNat % 2 ^ (8 <<< g.WSEL.toNat) = b'.toNat % 2 ^ (8 <<< g.WSEL.toNat) →
    exec (.generateRange a b) s = exec (.generateRange a' b') s) ∧
  (∀ (s : State) (g : Generator), s.gen = some g → g.WSEL = 0 →
    exec (.generateRange 0x1C0 0x1DE) s = exec (.generateRange 0xC0 0xDE) s ∧
    exec (.generateRange 0x100 0xFF) s = exec (.generateRange 0 0xFF) s) ∧
  (∀ (s : State) (g : Generator) (a b : U64), s.gen = some g → g.WSEL = 3 → b < a →
    exec (.generateRange a b) s = .next { s with responses := s.responses ++ [⟨.invalidRange, 0⟩] })

/-- Derived (R118, the modulo bias counted): of the `2^W` draws, offset `j` is produced by `floor((2^W - 1 - j) / span) + 1`. -/
def Obligations.ModuloBiasCounts : Prop :=
  ∀ (W : Nat) (low high : BitVec W) (j : Nat), low ≤ high → j < high.toNat - low.toNat + 1 →
    (List.range (2 ^ W)).countP
        (fun n => decide ((rangeValue low high (BitVec.ofNat W n)).toNat = low.toNat + j)) =
      (2 ^ W - 1 - j) / (high.toNat - low.toNat + 1) + 1

/-! ### 60_exceptions.md: statuses -/

/-- 60_exceptions.md R132: every legal command but CONSTRUCT is refused before construction, with no effect; once constructed, no
command is refused so, and no command undoes the construction. -/
def Obligations.UnconstructedIsRefused : Prop :=
  (∀ (i : Instr) (s : State), s.gen = none → (∀ wsel x, i ≠ .construct wsel x) →
    exec i s = .next { s with responses := s.responses ++ [⟨.notConstructed, 0⟩] }) ∧
  (∀ (i : Instr) (s t : State) (g : Generator), s.gen = some g → exec i s = .next t →
    (∃ r, t.responses = s.responses ++ [r] ∧ r.status ≠ .notConstructed) ∧ ∃ h, t.gen = some h)

/-- 60_exceptions.md R134: a command that ends with a status other than OK has no effect but its response, whose data is 0. -/
def Obligations.RefusedCommandHasNoEffect : Prop :=
  ∀ (s t : State) (w : CommandBits) (r : Response), step (present (.command w) s) = .next t →
    t.responses = s.responses ++ [r] → r.status ≠ .ok →
    t = { s with responses := s.responses ++ [⟨r.status, 0⟩] }

/-- 60_exceptions.md R136: which status each word gets in each state: ILLEGAL_COMMAND before NOT_CONSTRUCTED before INVALID_RANGE. -/
def Obligations.StatusPriority : Prop :=
  ∀ (s t : State) (w : CommandBits) (r : Response), step (present (.command w) s) = .next t →
    t.responses = s.responses ++ [r] →
    (r.status = .illegalCommand ↔ ∃ e, decode w = .error e) ∧
    (r.status = .notConstructed ↔
      s.gen = none ∧ ∃ i, decode w = .ok i ∧ ∀ wsel x, i ≠ .construct wsel x) ∧
    (r.status = .invalidRange ↔ ∃ g a b, s.gen = some g ∧ decode w = .ok (.generateRange a b) ∧
      b.toNat % 2 ^ (8 <<< g.WSEL.toNat) < a.toNat % 2 ^ (8 <<< g.WSEL.toNat))

/-- Derived (70_reset_and_hazards.md R172, the absence of failure paths): on a constructed instance every legal word but an inverted
GENERATE_RANGE is answered OK. -/
def Obligations.ValidCommandsAreOk : Prop :=
  ∀ (s : State) (g : Generator) (w : CommandBits) (i : Instr), s.gen = some g → decode w = .ok i →
    (∀ a b, i = .generateRange a b → a.toNat % 2 ^ (8 <<< g.WSEL.toNat) ≤ b.toNat % 2 ^ (8 <<< g.WSEL.toNat)) →
    ∃ t d, step (present (.command w) s) = .next t ∧ t.responses = s.responses ++ [⟨.ok, d⟩]

/-! ### 10_state.md: who reads and writes the state -/

/-- Derived (10_state.md section 7, the writes of R32's table), and the frame of every command: the configuration and the host's inputs are kept, one response is appended;
CONSTRUCT writes all three elements; while `INIT = 0` nothing else writes any; RESEED writes `S`; the others write `S` only through
the engine steps of R32's last column; nothing but CONSTRUCT writes `WSEL`. -/
def Obligations.StateAccessByCommand : Prop :=
  ∀ (i : Instr) (s t : State), exec i s = .next t →
    t.cfg = s.cfg ∧ t.pending = s.pending ∧ ∃ r, t.responses = s.responses ++ [r] ∧
      (∀ wsel x, i = .construct wsel x → t.gen = some ⟨x, wsel⟩) ∧
      ((∀ wsel x, i ≠ .construct wsel x) → s.gen = none → t.gen = none) ∧
      (∀ x g, i = .reseed x → s.gen = some g → t.gen = some ⟨x, g.WSEL⟩) ∧
      (∀ g, loadsSeed i = false → s.gen = some g →
        t.gen = some ⟨g.S + BitVec.ofNat 64 (engineStepsOf i r.status) * s.cfg.wyInc, g.WSEL⟩)

/-- Derived (10_state.md section 3, R24: "NEXT, RESEED and READ_STATE neither read nor write it"): from two states that differ in the width
alone they answer alike, leave the same `S`, and each keeps its width. -/
def Obligations.EngineCommandsDoNotReadWidth : Prop :=
  ∀ (c : Config) (ps : List HostInput) (rs : List Response) (S : U64) (w1 w2 : BitVec 2) (i : Instr),
    (i = .next ∨ i = .readState ∨ ∃ x, i = .reseed x) →
    ∃ S' r, exec i ⟨c, some ⟨S, w1⟩, ps, rs⟩ = .next ⟨c, some ⟨S', w1⟩, ps, rs ++ [r]⟩ ∧
      exec i ⟨c, some ⟨S, w2⟩, ps, rs⟩ = .next ⟨c, some ⟨S', w2⟩, ps, rs ++ [r]⟩

/-- 10_state.md R25: a step changes the width of a generator only when it runs a CONSTRUCT, which replaces `S` as well. -/
def Obligations.WidthChangesOnlyByConstruct : Prop :=
  ∀ (s t : State) (g h : Generator), s.gen = some g → t.gen = some h → step s = .next t → h.WSEL ≠ g.WSEL →
    ∃ w rest, s.pending = .command w :: rest ∧ decode w = .ok (.construct h.WSEL h.S)

/-- 10_state.md R26: only the reset event clears `INIT`, and it always does; only CONSTRUCT sets it, and it always does; while it is
0 every other command is answered NOT_CONSTRUCTED and changes nothing. -/
def Obligations.InitSetByConstructClearedByReset : Prop :=
  (∀ s t : State, step s = .next t →
    (s.INIT = true → t.INIT = false → ∃ rest, s.pending = .reset :: rest) ∧
    (s.INIT = false → t.INIT = true →
      ∃ w rest wsel x, s.pending = .command w :: rest ∧ decode w = .ok (.construct wsel x)) ∧
    (∀ rest, s.pending = .reset :: rest → t.INIT = false) ∧
    (∀ w rest wsel x, s.pending = .command w :: rest → decode w = .ok (.construct wsel x) → t.INIT = true)) ∧
  (∀ (s : State) (i : Instr), s.INIT = false → (∀ wsel x, i ≠ .construct wsel x) →
    exec i s = .next { s with responses := s.responses ++ [⟨.notConstructed, 0⟩] })

/-- Derived: the invariant every step keeps, in every state that has it, reached or not: see `StateInv`. -/
def Obligations.StepKeepsInvariant : Prop :=
  ∀ (c : Config) (n : Nat) (s t : State), StateInv c n s → step s = .next t → StateInv c n t

/-- Derived: the invariant holds at reset, with nothing owed. (The configuration at reset is the model's choice of the spec's default
profile: logs 3 and 4.) -/
def Obligations.InvariantAtReset : Prop := StateInv Config.doc 0 State.reset

/-! ### 20_memory.md and 70_reset_and_hazards.md: ordering, reset, runs, instances -/

/-- Derived (20_memory.md R46, 30_encoding.md R63): a step runs the decoded command: on the word the host presents next, `step` is `exec` of what the word decodes to, with the word
taken off what is presented and nothing else changed. -/
def Obligations.StepRunsDecodedCommand : Prop :=
  ∀ (s : State) (w : CommandBits) (rest : List HostInput) (i : Instr), s.pending = .command w :: rest → decode w = .ok i →
    step s = exec i { s with pending := rest }

/-- Derived (20_memory.md R47): every command produces exactly one response, appended after the earlier ones; CONSTRUCT and an accepted
RESEED answer `(OK, 0)`. A reset produces none (70_reset_and_hazards.md R155); that a step with nothing presented changes nothing is the
model's reading of R170 and R30 (log 7). -/
def Obligations.OneResponsePerCommand : Prop :=
  ∀ s : State,
    (∀ w rest, s.pending = .command w :: rest →
      ∃ t r, step s = .next t ∧ t.responses = s.responses ++ [r] ∧ t.pending = rest ∧
        (∀ wsel x, decode w = .ok (.construct wsel x) → r = ⟨.ok, 0⟩) ∧
        (∀ x g, decode w = .ok (.reseed x) → s.gen = some g → r = ⟨.ok, 0⟩)) ∧
    (∀ rest, s.pending = .reset :: rest → ∃ t, step s = .next t ∧ t.responses = s.responses ∧ t.pending = rest) ∧
    (s.pending = [] → step s = .next s)

/-- 70_reset_and_hazards.md R155: the reset event, in every state: `INIT <- 0`, `S` and `WSEL` lose their values, no response; every
later command but CONSTRUCT is then refused. -/
def Obligations.ResetEndsGenerator : Prop :=
  ∀ s : State, ∃ t, step (present .reset s) = .next t ∧ t = { s with gen := none } ∧
    ∀ i, (∀ wsel x, i ≠ .construct wsel x) →
      exec i t = .next { t with responses := t.responses ++ [⟨.notConstructed, 0⟩] }

/-- 70_reset_and_hazards.md R156 and 10_state.md R31: after reset `INIT = 0`, `S` and `WSEL` have no value, no response is outstanding
and any command is accepted; neither a reset nor any other step touches the constants. -/
def Obligations.StateAfterReset : Prop :=
  State.reset.INIT = false ∧ State.reset.gen = none ∧ State.reset.responses = [] ∧
  (∀ w, ∃ t r, step (present (.command w) State.reset) = .next t ∧ t.responses = [r]) ∧
  (∀ s t, step (present .reset s) = .next t → t.INIT = false ∧ t.gen = none) ∧
  (∀ s t, step s = .next t → t.cfg = s.cfg)

/-- 70_reset_and_hazards.md R167: every command completes, from every state: there is no fault, no refusal and no stuck state, and a
run of any length ends in a state. -/
def Obligations.EveryStepCompletes : Prop :=
  (∀ i s, ∃ t, exec i s = .next t) ∧ (∀ s, ∃ t, step s = .next t) ∧ (∀ s, SafeFrom s)

/-- Derived (70_reset_and_hazards.md R170, 20_memory.md R46): a run takes all the host presents, in order, and ends idle; it has produced one
response a command, and after `k` inputs exactly the responses to the commands among them. That the idle step then
changes nothing is log 7. -/
def Obligations.RunAnswersEveryCommand : Prop :=
  ∀ s : State, ∃ t rs, runFor s.pending.length s = .next t ∧ t.pending = [] ∧ step t = .next t ∧
    t.responses = s.responses ++ rs ∧ rs.length = commandCount s.pending ∧
    ∀ k, k ≤ s.pending.length → ∃ u, runFor k s = .next u ∧ u.pending = s.pending.drop k ∧
      u.responses = s.responses ++ rs.take (commandCount (s.pending.take k))

/-- Derived (R160, reproducibility): two instances with the same configuration, in any states, each reset and then given the same
inputs, produce the same responses and end in the same generator state. -/
def Obligations.RunsAreReproducible : Prop :=
  ∀ (s u : State) (xs : List HostInput) (n : Nat), s.cfg = u.cfg → s.pending = .reset :: xs → u.pending = .reset :: xs →
    ∃ t v rs, runFor (n + 1) s = .next t ∧ runFor (n + 1) u = .next v ∧
      t.responses = s.responses ++ rs ∧ v.responses = u.responses ++ rs ∧ t.gen = v.gen ∧ t.pending = v.pending

/-- 10_state.md R33, 20_memory.md R48: instances share nothing: a step of one is its own step and leaves the others as they are, and the
order in which instances step changes nothing. -/
def Obligations.InstancesAreIsolated : Prop :=
  (∀ (n : Nat) (v : Vector State n) (k : Fin n), ∃ t u, step v[k] = .next t ∧ stepInstance k v = .next u ∧ u[k] = t ∧
    ∀ j : Fin n, j ≠ k → u[j] = v[j]) ∧
  (∀ (n : Nat) (v : Vector State n) (ks js : List (Fin n)), List.Perm ks js → stepInstances ks v = stepInstances js v)

/-- Derived (70_reset_and_hazards.md R163, 20_memory.md R50): whatever the interleaving of several requesters' command lists, each command
gets one response, and one that is not OK carries no data. -/
def Obligations.SharedInstanceAnswersAll : Prop :=
  ∀ (s : State) (ls : List (List CommandBits)) (zs : List CommandBits), Merge ls zs → s.pending = asCommands zs →
    ∃ t rs, runFor zs.length s = .next t ∧ t.pending = [] ∧ t.responses = s.responses ++ rs ∧
      rs.length = (ls.map List.length).sum ∧ ∀ r ∈ rs, r.status ≠ .ok → r.data = 0
end

