-- ==== Sys2Proof/Laws/Decode.lean ====
section
/-! SUPPORT. What the fields of a packed word are, and that decoding reads nothing else. -/

namespace Sys2Proof

@[simp] theorem fieldsOf_packFields (c : CmdWord) : fieldsOf (packFields c) = c := by
  obtain ⟨op, wsel, rsv, a, b⟩ := c
  simp only [fieldsOf, packFields, CmdWord.mk.injEq]
  refine ⟨?_, ?_, ?_, ?_, ?_⟩ <;>
    · ext i hi
      simp only [BitVec.getElem_extractLsb', BitVec.getLsbD_append]
      grind

theorem decode_packFields (c : CmdWord) : decode (packFields c) = decodeFields c := by
  rw [decode, fieldsOf_packFields]

/-- R63's three checks, as propositions on the fields. -/
theorem legal_iff (c : CmdWord) :
    c.legal = true ↔ c.rsv = 0 ∧ (1 ≤ c.op.toNat ∧ c.op.toNat ≤ 6) ∧ (c.wsel = 0 ∨ c.op = 1) := by
  simp only [CmdWord.legal, CmdWord.rsvZero, CmdWord.opAssigned, CmdWord.wselAllowed, Bool.and_eq_true, Bool.or_eq_true,
    beq_iff_eq, decide_eq_true_eq, and_assoc]

end Sys2Proof
end

