-- ==== Sys2Proof/Laws/State.lean ====
section
/-! SUPPORT. One lemma per field per update of State, true by rfl. -/

namespace Sys2Proof.Machine

@[simp] theorem respond_cfg (st : Status) (m : MuxInput) (s : State) : (respond st m s).cfg = s.cfg := rfl
@[simp] theorem respond_gen (st : Status) (m : MuxInput) (s : State) : (respond st m s).gen = s.gen := rfl
@[simp] theorem respond_pending (st : Status) (m : MuxInput) (s : State) : (respond st m s).pending = s.pending := rfl
@[simp] theorem respond_responses (st : Status) (m : MuxInput) (s : State) :
    (respond st m s).responses = s.responses ++ [⟨st, outputMux st m⟩] := rfl

@[simp] theorem setGenerator_cfg (g : Generator) (s : State) : (setGenerator g s).cfg = s.cfg := rfl
@[simp] theorem setGenerator_gen (g : Generator) (s : State) : (setGenerator g s).gen = some g := rfl
@[simp] theorem setGenerator_pending (g : Generator) (s : State) : (setGenerator g s).pending = s.pending := rfl
@[simp] theorem setGenerator_responses (g : Generator) (s : State) : (setGenerator g s).responses = s.responses := rfl

@[simp] theorem applyReset_cfg (s : State) : (applyReset s).cfg = s.cfg := rfl
@[simp] theorem applyReset_gen (s : State) : (applyReset s).gen = none := rfl
@[simp] theorem applyReset_pending (s : State) : (applyReset s).pending = s.pending := rfl
@[simp] theorem applyReset_responses (s : State) : (applyReset s).responses = s.responses := rfl

@[simp] theorem present_cfg (x : HostInput) (s : State) : (present x s).cfg = s.cfg := rfl
@[simp] theorem present_gen (x : HostInput) (s : State) : (present x s).gen = s.gen := rfl
@[simp] theorem present_pending (x : HostInput) (s : State) : (present x s).pending = x :: s.pending := rfl
@[simp] theorem present_responses (x : HostInput) (s : State) : (present x s).responses = s.responses := rfl

end Sys2Proof.Machine
end

