-- ==== Sys2Proof/Laws/Ops.lean ====
section
/-! SUPPORT. One lemma per shared operation that says everything it can do: provers cite these and do not unfold the operation. -/

namespace Sys2Proof.Machine

/-! ### The output multiplexer and a command's response -/

/-- R90, first row. -/
theorem outputMux_refused {st : Status} (h : st ≠ .ok) (m : MuxInput) : outputMux st m = 0 := by
  cases st
  · exact absurd rfl h
  all_goals rfl

theorem outputMux_ok_zero : outputMux .ok .zero = 0 := rfl
theorem outputMux_ok_engine (o : U64) : outputMux .ok (.engine o) = o := rfl
theorem outputMux_ok_field (W : Nat) (v : BitVec W) : outputMux .ok (.field W v) = zext64 v := rfl
theorem outputMux_ok_stateReg (S : U64) : outputMux .ok (.stateReg S) = S := rfl

/-- R134: `raise` appends the response `(status, 0)` and changes nothing else. -/
theorem raise_eq (st : Status) (s : State) : raise st s = { s with responses := s.responses ++ [⟨st, 0⟩] } := by
  cases st <;> rfl

/-! ### The `INIT` check -/

theorem whenConstructed_none {s : State} (h : s.gen = none) (f : Generator → State) :
    whenConstructed s f = raise .notConstructed s := by
  simp only [whenConstructed, h]

theorem whenConstructed_some {s : State} {g : Generator} (h : s.gen = some g) (f : Generator → State) :
    whenConstructed s f = f g := by
  simp only [whenConstructed, h]

theorem INIT_eq_true_iff (s : State) : s.INIT = true ↔ ∃ g, s.gen = some g := Option.isSome_iff_exists

theorem INIT_eq_false_iff (s : State) : s.INIT = false ↔ s.gen = none := by
  rw [State.INIT, Option.isSome_eq_false_iff, Option.isNone_iff_eq_none]

/-! ### The engine -/

theorem algInit_eq (c : Config) (seed : U64) : algInit c seed = seed := by
  simp only [algInit]

theorem engineStep_eq (c : Config) (g : Generator) :
    engineStep c g = ({ g with S := g.S + c.wyInc }, mix c (g.S + c.wyInc)) := by
  simp only [engineStep, algNext, advance]

/-- The engine step never changes the width. -/
theorem engineStep_WSEL (c : Config) (g : Generator) : (engineStep c g).1.WSEL = g.WSEL := rfl

/-! ### Operands -/

theorem boundOf_toNat (W : Nat) (x : U64) : (boundOf W x).toNat = x.toNat % 2 ^ W := by
  simp [boundOf]

theorem proj_toNat (W : Nat) (o : U64) : (proj W o).toNat = o.toNat % 2 ^ W := by
  simp [proj]

/-- The four widths (10_state.md R24). -/
theorem widthBits_cases (w : BitVec 2) :
    (w = 0 ∧ widthBits w = 8) ∨ (w = 1 ∧ widthBits w = 16) ∨ (w = 2 ∧ widthBits w = 32) ∨ (w = 3 ∧ widthBits w = 64) := by
  revert w
  decide

theorem widthBits_le (w : BitVec 2) : widthBits w ≤ 64 := by
  rcases widthBits_cases w with ⟨_, h⟩ | ⟨_, h⟩ | ⟨_, h⟩ | ⟨_, h⟩ <;> omega

theorem zext64_toNat {W : Nat} (h : W ≤ 64) (v : BitVec W) : (zext64 v).toNat = v.toNat := by
  rw [zext64, BitVec.toNat_setWidth, Nat.mod_eq_of_lt]
  exact lt_of_lt_of_le v.isLt (Nat.pow_le_pow_right (by omega) h)

/-! ### What a command can do -/

theorem answersOnce_respond (st : Status) (m : MuxInput) (s : State) : AnswersOnce s (respond st m s) := ⟨s.gen, _, rfl⟩

theorem answersOnce_respond_setGenerator (st : Status) (m : MuxInput) (g : Generator) (s : State) :
    AnswersOnce s (respond st m (setGenerator g s)) := ⟨some g, _, rfl⟩

theorem answersOnce_whenConstructed {s : State} {f : Generator → State} (h : ∀ g, AnswersOnce s (f g)) :
    AnswersOnce s (whenConstructed s f) := by
  cases hs : s.gen with
  | none => rw [whenConstructed_none hs]; exact answersOnce_respond _ _ s
  | some g => rw [whenConstructed_some hs]; exact h g

/-- Every command ends in a next state that keeps the configuration and the host's inputs and has one more response. -/
theorem exec_answersOnce (i : Instr) (s : State) : ∃ t, exec i s = .next t ∧ AnswersOnce s t := by
  cases i with
  | construct w x => exact ⟨_, rfl, answersOnce_respond_setGenerator _ _ _ s⟩
  | reseed x => exact ⟨_, rfl, answersOnce_whenConstructed fun g => answersOnce_respond_setGenerator _ _ _ s⟩
  | next => exact ⟨_, rfl, answersOnce_whenConstructed fun g => answersOnce_respond_setGenerator _ _ _ s⟩
  | generate => exact ⟨_, rfl, answersOnce_whenConstructed fun g => answersOnce_respond_setGenerator _ _ _ s⟩
  | readState => exact ⟨_, rfl, answersOnce_whenConstructed fun g => answersOnce_respond _ _ s⟩
  | generateRange a b =>
    refine ⟨_, rfl, answersOnce_whenConstructed fun g => ?_⟩
    dsimp only
    split
    · exact answersOnce_respond _ _ s
    · exact answersOnce_respond_setGenerator _ _ _ s

/-! ### Taking an input -/

theorem takeInput_nil {s : State} (h : s.pending = []) : takeInput s = none := by
  simp only [takeInput, h]

theorem takeInput_cons {s : State} {x : HostInput} {rest : List HostInput} (h : s.pending = x :: rest) :
    takeInput s = some (x, { s with pending := rest }) := by
  simp only [takeInput, h]

/-- Taking what was just presented gives back the state before. -/
theorem takeInput_present (x : HostInput) (s : State) : takeInput (present x s) = some (x, s) := rfl

/-! ### Runs -/

theorem runFor_zero (s : State) : runFor 0 s = .next s := rfl

theorem runFor_succ {s t : State} (n : Nat) (h : step s = .next t) : runFor (n + 1) s = runFor n t := by
  have hc : Sys2Proof.core.step s = .next t := h
  simp only [runFor, Host.Core.run, hc]
  rfl

end Sys2Proof.Machine
end

