-- ==== Sys2Proof/Laws/PerInstr.lean ====
section
/-! SUPPORT. Per-command families: the canonical encoding of each command is a legally encoded word with the opcode of
30_encoding.md R55 and every ignored operand field zero (R67). -/

namespace Sys2Proof.Laws.CanonicalEncoding

/-- The opcode numbers of 30_encoding.md R55. -/
def opcodeOf (i : Instr) : Nat :=
  match i with
  | .construct _ _ => 1
  | .reseed _ => 2
  | .next => 3
  | .generate => 4
  | .generateRange _ _ => 5
  | .readState => 6

/-- The canonical word is legal (R63), carries the command's opcode (R55), and has field `b` zero but for GENERATE_RANGE and
field `a` zero for the commands without operands (R67). -/
def Statement (i : Instr) : Prop :=
  (fieldsOf (encode i)).legal = true ∧ (fieldsOf (encode i)).op.toNat = opcodeOf i ∧
    ((fieldsOf (encode i)).b = 0 ∨ opcodeOf i = 5) ∧
    ((fieldsOf (encode i)).a = 0 ∨ opcodeOf i = 1 ∨ opcodeOf i = 2 ∨ opcodeOf i = 5)

theorem construct (wsel : BitVec 2) (seed : U64) : Statement (.construct wsel seed) := by
  rw [Statement, encode, fieldsOf_packFields]
  exact ⟨by simp [encodeFields, CmdWord.legal, CmdWord.rsvZero, CmdWord.opAssigned, CmdWord.wselAllowed], rfl, .inl rfl, .inr (.inl rfl)⟩

theorem reseed (seed : U64) : Statement (.reseed seed) := by
  rw [Statement, encode, fieldsOf_packFields]
  exact ⟨rfl, rfl, .inl rfl, .inr (.inr (.inl rfl))⟩

theorem next : Statement .next := by
  rw [Statement, encode, fieldsOf_packFields]
  exact ⟨rfl, rfl, .inl rfl, .inl rfl⟩

theorem generate : Statement .generate := by
  rw [Statement, encode, fieldsOf_packFields]
  exact ⟨rfl, rfl, .inl rfl, .inl rfl⟩

theorem generateRange (a b : U64) : Statement (.generateRange a b) := by
  rw [Statement, encode, fieldsOf_packFields]
  exact ⟨rfl, rfl, .inr rfl, .inr (.inr (.inr rfl))⟩

theorem readState : Statement .readState := by
  rw [Statement, encode, fieldsOf_packFields]
  exact ⟨rfl, rfl, .inl rfl, .inl rfl⟩

end Sys2Proof.Laws.CanonicalEncoding
end

