-- ==== Sys2Proof/Tests/Slice0.lean ====
section
/-! SUPPORT. The model's own tests. Expected values are the spec's: 95_test_vectors.md (V1 to V3, T1 to T8), the worked examples of
the command rules, 30_encoding.md R55, R56 and R72 (words written out by hand). At the end, for every obligation with hypotheses, a
concrete case that meets them (`test_witness_<Obligation>`). -/

namespace Sys2Proof.Tests

open Sys2Proof Sys2Proof.Machine

/-- A constructed instance that has answered nothing yet. -/
def con (c : Config) (S : U64) (wsel : BitVec 2) : State := ⟨c, some ⟨S, wsel⟩, [], []⟩

/-- An instance that is not constructed. -/
def unc : State := ⟨Config.doc, none, [], []⟩

/-- The generator and the responses a step leaves, where it leaves a state. -/
def result (o : Host.Outcome State Fault Refusal) : Option (Option Generator × List Response) :=
  match o with
  | .next t => some (t.gen, t.responses)
  | .fault _ => none
  | .refused _ => none

/-- Whether a decoding gives a command, and which. -/
def decoded (w : CommandBits) : Option Instr :=
  match decode w with
  | .ok i => some i
  | .error _ => none

/-! ### Well-formedness: each of the three checks of R63 refuses the word that breaks it alone -/

theorem test_legal_generate : (CmdWord.mk 4 0 0 0 0).legal = true := by decide

theorem test_illformed_reserved_bits :
    (CmdWord.mk 1 0 1 0 0).rsvZero = false ∧ (CmdWord.mk 1 0 1 0 0).legal = false ∧
    (CmdWord.mk 1 0 1 0 0).opAssigned = true ∧ (CmdWord.mk 1 0 1 0 0).wselAllowed = true := by decide

theorem test_illformed_opcode :
    (CmdWord.mk 0 0 0 0 0).opAssigned = false ∧ (CmdWord.mk 7 0 0 0 0).opAssigned = false ∧
    (CmdWord.mk 0 0 0 0 0).legal = false ∧ (CmdWord.mk 7 0 0 0 0).legal = false ∧
    (CmdWord.mk 7 0 0 0 0).rsvZero = true ∧ (CmdWord.mk 7 0 0 0 0).wselAllowed = true := by decide

theorem test_illformed_width :
    (CmdWord.mk 5 3 0 0 0).wselAllowed = false ∧ (CmdWord.mk 5 3 0 0 0).legal = false ∧
    (CmdWord.mk 5 3 0 0 0).rsvZero = true ∧ (CmdWord.mk 5 3 0 0 0).opAssigned = true ∧
    (CmdWord.mk 1 3 0 0 0).legal = true := by decide

/-! ### Decoding: T4, the words bit by bit -/

theorem test_decode_construct_widths :
    decoded 0x000000000000000000000000DEADBEEF01 = some (.construct 0 0xDEADBEEF) ∧
    decoded 0x000000000000000000000000DEADBEEF09 = some (.construct 1 0xDEADBEEF) ∧
    decoded 0x000000000000000000000000DEADBEEF11 = some (.construct 2 0xDEADBEEF) ∧
    decoded 0x000000000000000000000000DEADBEEF19 = some (.construct 3 0xDEADBEEF) := by decide

theorem test_decode_construct_ignores_b :
    decoded 0x0000000000000077000000000000000519 = some (.construct 3 5) := by decide

theorem test_decode_reseed :
    decoded 0x0000000000000000FFFFFFFFFFFFFFFF02 = some (.reseed 0xFFFFFFFFFFFFFFFF) := by decide

theorem test_decode_next :
    decoded 0x0000000000000000000000000000000003 = some .next ∧
    decoded 0x0000000000005678000000000000123403 = some .next := by decide

theorem test_decode_generate : decoded 0x0000000000000000000000000000000004 = some .generate := by decide

theorem test_decode_generate_range :
    decoded 0x00000000000000DE00000000000000C005 = some (.generateRange 0xC0 0xDE) := by decide

/-- Both bounds, their highest and lowest bits. -/
theorem test_decode_generate_range_edges :
    decoded 0x8000000000000001FFFFFFFFFFFFFFFE05 = some (.generateRange 0xFFFFFFFFFFFFFFFE 0x8000000000000001) := by decide

theorem test_decode_read_state : decoded 0x0000000000000000000000000000000006 = some .readState := by decide

theorem test_decode_refuses :
    decode 0x0000000000000000000000000000000000 = .error .reservedOpcode ∧
    decode 0x0000000000000000000000000000000007 = .error .reservedOpcode ∧
    decode 0x000000000000000000000000000000000C = .error .widthOutsideConstruct ∧
    decode 0x00000000000000DE00000000000000C01D = .error .widthOutsideConstruct ∧
    decode 0x0000000000000000000000000000000112 = .error .widthOutsideConstruct ∧
    decode 0x0000000000000000000000000000000121 = .error .reservedBits ∧
    decode 0x0000000000000000000000000000000084 = .error .reservedBits ∧
    decode 0xFFFFFFFFFFFFFFFFFFFFFFFFFFFFFFFFFF = .error .reservedBits := ⟨rfl, rfl, rfl, rfl, rfl, rfl, rfl, rfl⟩

/-- R42: the control byte first, then operand `a` least significant byte first, then `b`. -/
theorem test_bytes_of_a_word :
    wordBytes 0x1112131415161718212223242526272805 =
      [0x05, 0x28, 0x27, 0x26, 0x25, 0x24, 0x23, 0x22, 0x21, 0x18, 0x17, 0x16, 0x15, 0x14, 0x13, 0x12, 0x11] := by decide

/-- A byte string that is not one word is refused by name (R43). -/
theorem test_bytes_of_no_word :
    decodeBytes [] = .error .notOneWord ∧ decodeBytes (List.replicate 16 3) = .error .notOneWord ∧
    decodeBytes (List.replicate 18 3) = .error .notOneWord := ⟨rfl, rfl, rfl⟩

theorem test_table_word :
    decodeTableWord 136 0x00000000000000DE00000000000000C005 = some (.generateRange 0xC0 0xDE) ∧
    decodeTableWord 8 0x06 = some .readState ∧ decodeTableWord 136 0x0C = none := by decide

/-- R70, R71. -/
theorem test_assembler_text :
    asmText (.construct 1 10) = "CONSTRUCT.16 10" ∧ asmText (.generateRange 192 222) = "GENERATE_RANGE 192, 222" ∧
    asmText .readState = "READ_STATE" ∧ asmText (pseudoRestore 3 0) = "CONSTRUCT.64 0" := by decide

/-! ### The engine's arithmetic: T1 -/

theorem test_mix_doc :
    mix Config.doc 2 = 0xFFFFFFFFFFFFFFFB ∧ mix Config.doc 0x8000000000000000 = 0xBFFFFFFFFFFFFFFF ∧
    mix Config.doc 0xFFFFFFFFFFFFFFFF = 0 ∧ mix Config.doc 0xFFFFFFFF = 0x00000001FFFFFFFE ∧
    mix Config.doc 0xDEADBEEF = 0x3E4E32EC2149231E := by decide

theorem test_mix_canon :
    mix Config.canon 1 = 0xE7037ED1A0B428DA ∧ mix Config.canon 0xE7037ED1A0B428DB = 0 ∧
    mix Config.canon 0xFFFFFFFFFFFFFFFF = 0xFFFFFFFFFFFFFFFF ∧
    mixProduct Config.canon 0xDEADBEEF = 0x00000000C8F1D1A2A34F48B75081D28C := by decide

theorem test_profiles_odd : Config.doc.wf = true ∧ Config.canon.wf = true ∧ Config.toy.wf = true := by decide

/-- R111 and R118's example: `W = 8`, `span = 6`, offset 3 has 43 draws and offset 4 has 42; the full range needs the ninth bit. -/
theorem test_span :
    rangeSpan (0xFA : BitVec 8) 0xFF = 6 ∧ rangeSpan (0 : BitVec 8) 0xFF = 0x100 ∧ rangeSpan (7 : BitVec 8) 7 = 1 := by decide

/-! ### One step of each command: V1 to V3, T2, T5, T6, T8 -/

/-- R76's example, presented as a word at reset. -/
theorem test_construct_from_reset :
    result (step (State.reset.withFetchWord 136 0x000000000000000000000000DEADBEEF09)) =
      some (some ⟨0xDEADBEEF, 1⟩, [⟨.ok, 0⟩]) := by decide

/-- R78. -/
theorem test_construct_again :
    result (exec (.construct 3 0xFFFFFFFFFFFFFFFF) (con Config.doc 5 1)) =
      some (some ⟨0xFFFFFFFFFFFFFFFF, 3⟩, [⟨.ok, 0⟩]) := by decide

/-- R77's example. -/
theorem test_reseed :
    result (exec (.reseed 0) (con Config.doc 0x40EC3AC9D028874D 1)) = some (some ⟨0, 1⟩, [⟨.ok, 0⟩]) := by decide

theorem test_reseed_unconstructed : result (exec (.reseed 9) unc) = some (none, [⟨.notConstructed, 0⟩]) := by decide

/-- R83's examples, one per profile. -/
theorem test_next_zero_seed :
    result (exec .next (con Config.doc 0 3)) =
      some (some ⟨0xA0761D6478BD642F, 3⟩, [⟨.ok, 0xF5789FFDA776B6A1⟩]) ∧
    result (exec .next (con Config.canon 0 0)) =
      some (some ⟨0xA0761D6478BD642F, 0⟩, [⟨.ok, 0x111CB3A78F59A58E⟩]) ∧
    result (exec .next (con Config.toy 0 1)) = some (some ⟨1, 1⟩, [⟨.ok, 0xFFFFFFFFFFFFFFFE⟩]) := by decide

/-- T2 row 4: the state addition wraps. -/
theorem test_next_wraps :
    result (exec .next (con Config.doc 0xFFFFFFFFFFFFFFFF 0)) =
      some (some ⟨0xA0761D6478BD642E, 0⟩, [⟨.ok, 0x34655A8491F3CE1C⟩]) := by decide

/-- V1 and T5: one draw at the four widths. -/
theorem test_generate_widths :
    result (exec .generate (con Config.doc 0xDEADBEEF 0)) = some (some ⟨0xA0761D65576B231E, 0⟩, [⟨.ok, 0xD9⟩]) ∧
    result (exec .generate (con Config.doc 0xDEADBEEF 1)) = some (some ⟨0xA0761D65576B231E, 1⟩, [⟨.ok, 0x27D9⟩]) ∧
    result (exec .generate (con Config.doc 0xDEADBEEF 2)) = some (some ⟨0xA0761D65576B231E, 2⟩, [⟨.ok, 0x69F727D9⟩]) ∧
    result (exec .generate (con Config.doc 0xDEADBEEF 3)) =
      some (some ⟨0xA0761D65576B231E, 3⟩, [⟨.ok, 0x1A6B201E69F727D9⟩]) := by decide

theorem test_generate_canon_toy :
    result (exec .generate (con Config.canon 0xDEADBEEF 1)) = some (some ⟨0xA0761D65576B231E, 1⟩, [⟨.ok, 0x1B73⟩]) ∧
    result (exec .generate (con Config.toy 0xDEADBEEF 1)) = some (some ⟨0xDEADBEF0, 1⟩, [⟨.ok, 0x9EFF⟩]) := by decide

/-- V2 and T6: an ordinary range, a bound with bits above the width, the full range at widths 8 and 64, `low = high` at the top. -/
theorem test_generate_range :
    result (exec (.generateRange 0xC0 0xDE) (con Config.doc 0xDEADBEEF 1)) =
      some (some ⟨0xA0761D65576B231E, 1⟩, [⟨.ok, 0xC2⟩]) ∧
    result (exec (.generateRange 0x1C0 0x1DE) (con Config.doc 0xE162582E48E5EB7C 0)) =
      some (some ⟨0x81D87592C1A34FAB, 0⟩, [⟨.ok, 0xDA⟩]) ∧
    result (exec (.generateRange 0 0xFF) (con Config.doc 0xDEADBEEF 0)) =
      some (some ⟨0xA0761D65576B231E, 0⟩, [⟨.ok, 0xD9⟩]) ∧
    result (exec (.generateRange 0 0xFFFFFFFFFFFFFFFF) (con Config.doc 0xDEADBEEF 3)) =
      some (some ⟨0xA0761D65576B231E, 3⟩, [⟨.ok, 0x1A6B201E69F727D9⟩]) ∧
    result (exec (.generateRange 0xFFFFFFFFFFFFFFFF 0xFFFFFFFFFFFFFFFF) (con Config.doc 0xE162582E48E5EB7C 3)) =
      some (some ⟨0x81D87592C1A34FAB, 3⟩, [⟨.ok, 0xFFFFFFFFFFFFFFFF⟩]) := by decide

/-- R122's example, and T6: inverted at width 64. -/
theorem test_generate_range_inverted :
    result (exec (.generateRange 0xDE 0xC0) (con Config.doc 0x40EC3AC9D028874D 1)) =
      some (some ⟨0x40EC3AC9D028874D, 1⟩, [⟨.invalidRange, 0⟩]) ∧
    result (exec (.generateRange 5 4) (con Config.doc 0x81D87592C1A34FAB 3)) =
      some (some ⟨0x81D87592C1A34FAB, 3⟩, [⟨.invalidRange, 0⟩]) := by decide

/-- R84's example. -/
theorem test_read_state :
    result (exec .readState (con Config.doc 0xE162582E48E5EB7C 1)) =
      some (some ⟨0xE162582E48E5EB7C, 1⟩, [⟨.ok, 0xE162582E48E5EB7C⟩]) := by decide

/-- R136: an ill-formed word on an unconstructed instance; GENERATE_RANGE there, whatever its bounds; a reset between commands. -/
theorem test_statuses_by_priority :
    result (step (State.reset.withFetchWord 136 0)) = some (none, [⟨.illegalCommand, 0⟩]) ∧
    result (step (State.reset.withFetchWord 136 0x000000000000000000000000000000FF05)) = some (none, [⟨.notConstructed, 0⟩]) ∧
    result (step (present .reset (con Config.doc 5 1))) = some (none, []) := by decide

/-- R60: `(INVALID_RANGE, 0)` and `(ILLEGAL_COMMAND, 0)` on the 66 bits of the port, `(OK, 0xC2)` too. -/
theorem test_response_bits :
    responseBits ⟨.invalidRange, 0⟩ = 0x10000000000000000 ∧ responseBits ⟨.illegalCommand, 0⟩ = 0x30000000000000000 ∧
    responseBits ⟨.ok, 0xC2⟩ = 0xC2 := by decide

/-! ### Witnesses: for each obligation with hypotheses, concrete cases that meet them, clause by clause -/

theorem test_witness_DecodeByMaskAndMatch :
    (0xFF00000000000000000000000000000019 : CommandBits) &&& 0xE7 = 0x01 ∧
    (0xFF00000000000000000000000000000002 : CommandBits) &&& 0xFF = 0x02 ∧
    (0xFF00000000000000000000000000000003 : CommandBits) &&& 0xFF = 0x03 ∧
    (0xFF00000000000000000000000000000004 : CommandBits) &&& 0xFF = 0x04 ∧
    (0xFF00000000000000000000000000000005 : CommandBits) &&& 0xFF = 0x05 ∧
    (0xFF00000000000000000000000000000006 : CommandBits) &&& 0xFF = 0x06 ∧
    ((0xFF00000000000000000000000000000007 : CommandBits) &&& 0xE7 ≠ 0x01 ∧
      (0xFF00000000000000000000000000000007 : CommandBits) &&& 0xFF = 0x07 ∧
      (7 : CommandBits) ≠ 0x02 ∧ (7 : CommandBits) ≠ 0x03 ∧ (7 : CommandBits) ≠ 0x04 ∧ (7 : CommandBits) ≠ 0x05 ∧
      (7 : CommandBits) ≠ 0x06) := by decide

theorem test_witness_LegalWordsAreTheCommands :
    (0xAA00000000000000000000000000000003 : CommandBits).setWidth 8 = (3 : CommandBits).setWidth 8 ∧
    decoded 3 = some .next ∧ decoded 0x83 = none := by decide

theorem test_witness_ReservedEncodingsAreIllegal :
    (0x500 : CommandBits).extractLsb' 0 3 = 0 ∧ (0x507 : CommandBits).extractLsb' 0 3 = 7 ∧
    (0x521 : CommandBits).extractLsb' 5 3 ≠ 0 ∧
    ((0x50C : CommandBits).extractLsb' 3 2 ≠ 0 ∧ (0x50C : CommandBits).extractLsb' 0 3 ≠ 1) := by decide

theorem test_witness_EncodeClearsIgnoredBits :
    decode 0xFF00000000000000000000000000000519 = .ok (.construct 3 5) ∧
    decode 0xFF00000000000000000000000000000502 = .ok (.reseed 5) ∧
    decode 0xFF00000000000000000000000000000503 = .ok .next ∧
    decode 0xFF00000000000000000000000000000504 = .ok .generate ∧
    decode 0xFF00000000000000000000000000000505 = .ok (.generateRange 5 0xFF00000000000000) ∧
    decode 0xFF00000000000000000000000000000506 = .ok .readState := ⟨rfl, rfl, rfl, rfl, rfl, rfl⟩

/-- One clause each: RESEED with another `b`, NEXT with another `a`, GENERATE_RANGE at width 8 with bits above the width. -/
theorem test_witness_UnusedOperandFieldsIgnored :
    ((0xFF00000000000000000000000000000502 : CommandBits).setWidth 8 = (0x502 : CommandBits).setWidth 8 ∧
      (0x502 : CommandBits).extractLsb' 0 3 = 2 ∧
      (0xFF00000000000000000000000000000502 : CommandBits).extractLsb' 8 64 = (0x502 : CommandBits).extractLsb' 8 64) ∧
    ((0x503 : CommandBits).setWidth 8 = (3 : CommandBits).setWidth 8 ∧ (3 : CommandBits).extractLsb' 0 3 = 3) ∧
    ((0x00000000000001DE00000000000001C005 : CommandBits).setWidth 8 = (5 : CommandBits).setWidth 8 ∧
      (0x00000000000000DE00000000000000C005 : CommandBits).extractLsb' 0 3 = 5 ∧
      (con Config.doc 9 0).gen = some ⟨9, 0⟩ ∧
      ((0x00000000000001DE00000000000001C005 : CommandBits).extractLsb' 8 64).toNat % 2 ^ (8 <<< (0 : BitVec 2).toNat) =
        ((0x00000000000000DE00000000000000C005 : CommandBits).extractLsb' 8 64).toNat % 2 ^ (8 <<< (0 : BitVec 2).toNat) ∧
      ((0x00000000000001DE00000000000001C005 : CommandBits).extractLsb' 72 64).toNat % 2 ^ (8 <<< (0 : BitVec 2).toNat) =
        ((0x00000000000000DE00000000000000C005 : CommandBits).extractLsb' 72 64).toNat % 2 ^ (8 <<< (0 : BitVec 2).toNat)) ∧
    decode (encode .next) = decode (encode .next) := ⟨by decide, by decide, by decide, rfl⟩

/-- The first, a middle and the last byte of a word and of a response's data. -/
theorem test_witness_ByteStringsAreLittleEndian : 0 < 17 ∧ 9 < 17 ∧ 16 < 17 ∧ 0 < 8 ∧ 7 < 8 := by decide

theorem test_witness_ResponseWordFields :
    (Response.mk .ok 7).status = .ok ∧ (Response.mk .invalidRange 0).status = .invalidRange ∧
    (Response.mk .notConstructed 0).status = .notConstructed ∧ (Response.mk .illegalCommand 0).status = .illegalCommand := by
  decide

/-- The narrowest and the widest generator: the case every statement with `s.gen = some g` asks for. -/
theorem test_witness_PseudoCommandsExpand :
    (con Config.doc 0 0).gen = some ⟨0, 0⟩ ∧ (con Config.doc 0xFFFFFFFFFFFFFFFF 3).gen = some ⟨0xFFFFFFFFFFFFFFFF, 3⟩ := by decide

theorem test_witness_ConstructStoresSeedAndWidth : (4 : BitVec 3) ≠ 0 := by decide

theorem test_witness_ReseedKeepsWidth : (con Config.doc 5 3).gen = some ⟨5, 3⟩ ∧ unc.gen = none := by decide

theorem test_witness_ReseedActsAsConstruct : (con Config.canon 5 2).gen = some ⟨5, 2⟩ := by decide

/-- The three stepping commands, the range at its two boundaries: `low = high`, and the full range. -/
theorem test_witness_EngineStepAdvancesThenMixes :
    (con Config.doc 5 0).gen = some ⟨5, 0⟩ ∧ (∃ t, exec .next (con Config.doc 5 0) = .next t) ∧
    (∃ t, exec .generate (con Config.doc 5 0) = .next t) ∧
    ((0x107 : U64).toNat % 2 ^ (8 <<< (0 : BitVec 2).toNat) ≤ (7 : U64).toNat % 2 ^ (8 <<< (0 : BitVec 2).toNat) ∧
      ∃ t, exec (.generateRange 0x107 7) (con Config.doc 5 0) = .next t) ∧
    ((0 : U64).toNat % 2 ^ (8 <<< (3 : BitVec 2).toNat) ≤
        (0xFFFFFFFFFFFFFFFF : U64).toNat % 2 ^ (8 <<< (3 : BitVec 2).toNat) ∧
      ∃ t, exec (.generateRange 0 0xFFFFFFFFFFFFFFFF) (con Config.doc 5 3) = .next t) :=
  ⟨rfl, ⟨_, rfl⟩, ⟨_, rfl⟩, ⟨by decide, _, rfl⟩, by decide, _, rfl⟩

theorem test_witness_MixFoldsExactProduct : Config.doc.wyMask = 0xFFFFFFFFFFFFFFFF := by decide

theorem test_witness_NextReturnsMixedState : (con Config.canon 0 1).gen = some ⟨0, 1⟩ ∧ unc.gen = none := by decide

theorem test_witness_ReadStateReturnsState :
    (con Config.doc 5 1).gen = some ⟨5, 1⟩ ∧ (∃ t, exec .readState (con Config.doc 5 1) = .next t) ∧ unc.gen = none ∧
    ∃ t, exec (.construct 3 0) unc = .next t := ⟨rfl, ⟨_, rfl⟩, rfl, _, rfl⟩

/-- Words that load no seed: NEXT, an ill-formed word, an inverted GENERATE_RANGE; and a NEXT at place 0. -/
theorem test_witness_StateClosedForm :
    ∃ s : State, s.gen = some ⟨0, 1⟩ ∧ s.pending = asCommands [3, 0, encode (.generateRange 2 1)] ∧
      (∀ v ∈ ([3, 0, encode (.generateRange 2 1)] : List CommandBits), wordLoadsSeed v = false) ∧
      ([3, 0, encode (.generateRange 2 1)] : List CommandBits)[0]? = some 3 ∧ decode 3 = .ok .next :=
  ⟨⟨Config.doc, some ⟨0, 1⟩, asCommands [3, 0, encode (.generateRange 2 1)], []⟩, rfl, rfl,
    List.forall_mem_cons.mpr ⟨rfl, List.forall_mem_cons.mpr ⟨rfl, List.forall_mem_singleton.mpr rfl⟩⟩, rfl, rfl⟩

theorem test_witness_StateSequenceHasFullPeriod :
    (con Config.doc 0 1).cfg.wf = true ∧ (con Config.doc 0 1).gen = some ⟨0, 1⟩ := by decide

theorem test_witness_ZeroSeedAdvances :
    unc.cfg.wf = true ∧ ∃ t, exec (.construct 1 0) unc = .next t := ⟨by decide, _, rfl⟩

/-- R165's two seeds, in profile DOC and in profile CANON. -/
theorem test_witness_DistinctSeedsBothAnswerZero :
    unc.cfg.wyMask ≠ 0 ∧ 0x5F89E29B87429BD1 = 0 - Config.doc.wyInc ∧ 0x5F89E29B87429BD0 = Config.doc.wyMask - Config.doc.wyInc ∧
    (∃ t, exec (.construct 1 0x5F89E29B87429BD1) unc = .next t) ∧
    Config.canon.wyMask ≠ 0 ∧ 0x468D616D27F6C4AC = Config.canon.wyMask - Config.canon.wyInc :=
  ⟨by decide, by decide, by decide, ⟨_, rfl⟩, by decide, by decide⟩

/-- Restored by CONSTRUCT on an unconstructed instance, and by RESEED on a generator of the same width. -/
theorem test_witness_RestoreContinuesSequence :
    (∃ s a u b : State, s.gen = some ⟨9, 1⟩ ∧ exec .readState s = .next a ∧ a.responses = s.responses ++ [⟨.ok, 9⟩] ∧
      u.cfg = s.cfg ∧ exec (.construct 1 9) u = .next b) ∧
    (∃ s a u b : State, s.gen = some ⟨9, 1⟩ ∧ exec .readState s = .next a ∧ a.responses = s.responses ++ [⟨.ok, 9⟩] ∧
      u.cfg = s.cfg ∧ ∃ h, u.gen = some h ∧ h.WSEL = 1 ∧ exec (.reseed 9) u = .next b) :=
  ⟨⟨con Config.doc 9 1, _, unc, _, rfl, rfl, rfl, rfl, rfl⟩,
    ⟨con Config.doc 9 1, _, con Config.doc 77 1, _, rfl, rfl, rfl, rfl, ⟨77, 1⟩, rfl, rfl, rfl⟩⟩

/-- Every command answered OK, and one refused. -/
theorem test_witness_OutputMuxByCommand :
    (∀ i ∈ [Instr.construct 1 5, .reseed 5, .next, .generate, .generateRange 1 6, .readState],
      ∃ t r, exec i (con Config.doc 5 1) = .next t ∧ t.responses = [r] ∧ r.status = .ok) ∧
    ∃ t r, exec .next unc = .next t ∧ t.responses = [r] ∧ r.status ≠ .ok := by
  refine ⟨?_, _, _, rfl, rfl, by decide⟩
  simp only [List.forall_mem_cons, List.not_mem_nil, false_implies, implies_true, and_true]
  exact ⟨⟨_, _, rfl, rfl, rfl⟩, ⟨_, _, rfl, rfl, rfl⟩, ⟨_, _, rfl, rfl, rfl⟩, ⟨_, _, rfl, rfl, rfl⟩, ⟨_, _, rfl, rfl, rfl⟩,
    ⟨_, _, rfl, rfl, rfl⟩⟩

theorem test_witness_GenerateReturnsLowBits : (con Config.toy 5 0).gen = some ⟨5, 0⟩ ∧ unc.gen = none := by decide

theorem test_witness_WidthSixtyFourGenerateIsNext :
    (con Config.doc 5 3).gen = some ⟨5, 3⟩ ∧ (⟨5, 3⟩ : Generator).WSEL = 3 := by decide

/-- Widths 8 and 64, two commands each; the results at place 0. -/
theorem test_witness_NarrowResultsAreLowBitsOfWide :
    ∃ (s u : State) (r q : Response), s.cfg = u.cfg ∧ s.gen = some ⟨5, 0⟩ ∧ u.gen = some ⟨5, 3⟩ ∧ (0 : BitVec 2) ≤ 3 ∧
      s.pending = List.replicate 2 (.command (encode .generate)) ∧ u.pending = List.replicate 2 (.command (encode .generate)) ∧
      [r][0]? = some r ∧ [q][0]? = some q :=
  ⟨⟨Config.doc, some ⟨5, 0⟩, List.replicate 2 (.command (encode .generate)), []⟩,
    ⟨Config.doc, some ⟨5, 3⟩, List.replicate 2 (.command (encode .generate)), []⟩, ⟨.ok, 0⟩, ⟨.ok, 0⟩,
    rfl, rfl, rfl, by decide, rfl, rfl, rfl, rfl⟩

theorem test_witness_GenerateFitsWidth :
    (con Config.doc 5 0).gen = some ⟨5, 0⟩ ∧ ∃ t, exec .generate (con Config.doc 5 0) = .next t := ⟨rfl, _, rfl⟩

/-- The full range and the single value, at the narrowest and the widest width. -/
theorem test_witness_SpanIsExact :
    (0 : BitVec 8) ≤ 0xFF ∧ (0xFF : BitVec 8) ≤ 0xFF ∧ (0 : BitVec 64) ≤ 0xFFFFFFFFFFFFFFFF := by decide

/-- Each clause at a boundary: not constructed; inverted by one; `low = high`; the full range; at widths 8 and 64. -/
theorem test_witness_GenerateRangeReducesDraw :
    unc.gen = none ∧
    ((con Config.doc 5 0).gen = some ⟨5, 0⟩ ∧
      (0x107 : U64).toNat % 2 ^ (8 <<< (0 : BitVec 2).toNat) < (0x208 : U64).toNat % 2 ^ (8 <<< (0 : BitVec 2).toNat)) ∧
    ((con Config.doc 5 3).gen = some ⟨5, 3⟩ ∧
      (0xFFFFFFFFFFFFFFFE : U64).toNat % 2 ^ (8 <<< (3 : BitVec 2).toNat) <
        (0xFFFFFFFFFFFFFFFF : U64).toNat % 2 ^ (8 <<< (3 : BitVec 2).toNat)) ∧
    (7 = (0x107 : U64).toNat % 2 ^ (8 <<< (0 : BitVec 2).toNat) ∧ 7 = (7 : U64).toNat % 2 ^ (8 <<< (0 : BitVec 2).toNat) ∧
      7 ≤ 7 ∧ 0xD9 = (mix Config.doc (0xDEADBEEF + Config.doc.wyInc)).toNat % 2 ^ (8 <<< (0 : BitVec 2).toNat)) ∧
    (0 = (0 : U64).toNat % 2 ^ (8 <<< (3 : BitVec 2).toNat) ∧
      0xFFFFFFFFFFFFFFFF = (0xFFFFFFFFFFFFFFFF : U64).toNat % 2 ^ (8 <<< (3 : BitVec 2).toNat) ∧ 0 ≤ 0xFFFFFFFFFFFFFFFF) := by
  decide

theorem test_witness_InvertedBoundsRefused :
    (con Config.doc 5 1).gen = some ⟨5, 1⟩ ∧
    (0xC0 : U64).toNat % 2 ^ (8 <<< (1 : BitVec 2).toNat) < (0xDE : U64).toNat % 2 ^ (8 <<< (1 : BitVec 2).toNat) := by decide

theorem test_witness_RangeResultWithinBounds :
    (con Config.doc 5 0).gen = some ⟨5, 0⟩ ∧ ∃ t r, exec (.generateRange 1 6) (con Config.doc 5 0) = .next t ∧
      t.responses = (con Config.doc 5 0).responses ++ [r] ∧ r.status = .ok := ⟨rfl, _, _, rfl, rfl, rfl⟩

/-- At width 8 with a bit above the width in each bound, and at width 64. -/
theorem test_witness_FullRangeIsGenerate :
    ((con Config.doc 5 0).gen = some ⟨5, 0⟩ ∧ (0x100 : U64).toNat % 2 ^ (8 <<< (0 : BitVec 2).toNat) = 0 ∧
      (0x1FF : U64).toNat % 2 ^ (8 <<< (0 : BitVec 2).toNat) = 2 ^ (8 <<< (0 : BitVec 2).toNat) - 1) ∧
    ((con Config.doc 5 3).gen = some ⟨5, 3⟩ ∧ (0 : U64).toNat % 2 ^ (8 <<< (3 : BitVec 2).toNat) = 0 ∧
      (0xFFFFFFFFFFFFFFFF : U64).toNat % 2 ^ (8 <<< (3 : BitVec 2).toNat) = 2 ^ (8 <<< (3 : BitVec 2).toNat) - 1) := by decide

theorem test_witness_SingleValueRangeStillSteps : (con Config.doc 5 1).gen = some ⟨5, 1⟩ := by decide

theorem test_witness_BoundBitsAboveWidthIgnored :
    ((con Config.doc 5 0).gen = some ⟨5, 0⟩ ∧
      (0x1C0 : U64).toNat % 2 ^ (8 <<< (0 : BitVec 2).toNat) = (0xC0 : U64).toNat % 2 ^ (8 <<< (0 : BitVec 2).toNat) ∧
      (0x1DE : U64).toNat % 2 ^ (8 <<< (0 : BitVec 2).toNat) = (0xDE : U64).toNat % 2 ^ (8 <<< (0 : BitVec 2).toNat)) ∧
    (⟨5, 0⟩ : Generator).WSEL = 0 ∧
    ((con Config.doc 5 3).gen = some ⟨5, 3⟩ ∧ (⟨5, 3⟩ : Generator).WSEL = 3 ∧
      (0xFF : U64) < 0x8000000000000000) := by decide

/-- R118's example, its first and last offset. -/
theorem test_witness_ModuloBiasCounts :
    (1 : BitVec 8) ≤ 6 ∧ 0 < (6 : BitVec 8).toNat - (1 : BitVec 8).toNat + 1 ∧
    5 < (6 : BitVec 8).toNat - (1 : BitVec 8).toNat + 1 := by decide

theorem test_witness_UnconstructedIsRefused :
    unc.gen = none ∧ (∀ wsel x, Instr.next ≠ .construct wsel x) ∧
    (con Config.doc 5 1).gen = some ⟨5, 1⟩ ∧ ∃ t, exec .readState (con Config.doc 5 1) = .next t :=
  ⟨rfl, nofun, rfl, _, rfl⟩

/-- The three statuses that are not OK. -/
theorem test_witness_RefusedCommandHasNoEffect :
    (∃ t r, step (present (.command 0) unc) = .next t ∧ t.responses = unc.responses ++ [r] ∧ r.status = .illegalCommand) ∧
    (∃ t r, step (present (.command 3) unc) = .next t ∧ t.responses = unc.responses ++ [r] ∧ r.status = .notConstructed) ∧
    (∃ t r, step (present (.command (encode (.generateRange 2 1))) (con Config.doc 5 1)) = .next t ∧
      t.responses = (con Config.doc 5 1).responses ++ [r] ∧ r.status = .invalidRange) :=
  ⟨⟨_, _, rfl, rfl, rfl⟩, ⟨_, _, rfl, rfl, rfl⟩, ⟨_, _, rfl, rfl, rfl⟩⟩

/-- An ill-formed word on an unconstructed instance, where the first two conditions of R136 both hold. -/
theorem test_witness_StatusPriority :
    ∃ t r, step (present (.command 0x0D) unc) = .next t ∧ t.responses = unc.responses ++ [r] ∧ r.status = .illegalCommand :=
  ⟨_, _, rfl, rfl, rfl⟩

theorem test_witness_ValidCommandsAreOk :
    (con Config.doc 5 0).gen = some ⟨5, 0⟩ ∧
    (decode 3 = .ok .next ∧ ∀ a b : U64, Instr.next = .generateRange a b →
      a.toNat % 2 ^ (8 <<< (0 : BitVec 2).toNat) ≤ b.toNat % 2 ^ (8 <<< (0 : BitVec 2).toNat)) ∧
    (decode 0x00000000000001DE00000000000002C005 = .ok (.generateRange 0x2C0 0x1DE) ∧
      ∀ a b, Instr.generateRange 0x2C0 0x1DE = .generateRange a b →
        a.toNat % 2 ^ (8 <<< (0 : BitVec 2).toNat) ≤ b.toNat % 2 ^ (8 <<< (0 : BitVec 2).toNat)) := by
  refine ⟨rfl, ⟨rfl, nofun⟩, rfl, ?_⟩
  intro a b h
  cases h
  decide

/-- Each clause: a CONSTRUCT; a command on an unconstructed instance; a RESEED; the commands that load no seed. -/
theorem test_witness_StateAccessByCommand :
    (∃ t, exec (.construct 1 5) unc = .next t) ∧
    ((∃ t, exec .generate unc = .next t) ∧ (∀ wsel x, Instr.generate ≠ .construct wsel x) ∧ unc.gen = none) ∧
    ((∃ t, exec (.reseed 5) (con Config.doc 9 1) = .next t) ∧ (con Config.doc 9 1).gen = some ⟨9, 1⟩) ∧
    ((∃ t, exec (.generateRange 1 6) (con Config.doc 9 1) = .next t) ∧ loadsSeed (.generateRange 1 6) = false) ∧
    loadsSeed .next = false ∧ loadsSeed .generate = false ∧ loadsSeed .readState = false :=
  ⟨⟨_, rfl⟩, ⟨⟨_, rfl⟩, nofun, rfl⟩, ⟨⟨_, rfl⟩, rfl⟩, ⟨⟨_, rfl⟩, rfl⟩, rfl, rfl, rfl⟩

theorem test_witness_EngineCommandsDoNotReadWidth :
    (Instr.next = .next) ∧ (Instr.readState = .readState) ∧ ∃ x, Instr.reseed 5 = .reseed x := ⟨rfl, rfl, _, rfl⟩

theorem test_witness_WidthChangesOnlyByConstruct :
    ∃ s t : State, s.gen = some ⟨9, 1⟩ ∧ t.gen = some ⟨5, 3⟩ ∧ step s = .next t ∧ (3 : BitVec 2) ≠ 1 :=
  ⟨present (.command (encode (.construct 3 5))) (con Config.doc 9 1), _, rfl, rfl, rfl, by decide⟩

/-- `INIT` cleared by a reset, set by a CONSTRUCT, and a command refused while it is 0. -/
theorem test_witness_InitSetByConstructClearedByReset :
    (∃ s t : State, step s = .next t ∧ s.INIT = true ∧ t.INIT = false ∧ s.pending = [.reset]) ∧
    (∃ s t : State, step s = .next t ∧ s.INIT = false ∧ t.INIT = true ∧ s.pending = [.command (encode (.construct 3 5))] ∧
      decode (encode (.construct 3 5)) = .ok (.construct 3 5)) ∧
    (unc.INIT = false ∧ ∀ wsel x, Instr.readState ≠ .construct wsel x) :=
  ⟨⟨present .reset (con Config.doc 9 1), _, rfl, rfl, rfl, rfl⟩,
    ⟨present (.command (encode (.construct 3 5))) unc, _, rfl, rfl, rfl, rfl, rfl⟩, rfl, nofun⟩

/-- A state with one refused response behind it and two commands still to come: three responses owed. -/
theorem test_witness_StepKeepsInvariant :
    ∃ s t : State, StateInv Config.doc 3 s ∧ step s = .next t :=
  ⟨⟨Config.doc, some ⟨9, 1⟩, [.command 3, .reset, .command 0], [⟨.invalidRange, 0⟩]⟩, _,
    ⟨rfl, by decide, by decide, by decide⟩, rfl⟩

theorem test_witness_StepRunsDecodedCommand :
    (present (.command 0x503) (con Config.doc 9 1)).pending = [.command 0x503] ∧ decode 0x503 = .ok .next := ⟨rfl, rfl⟩

/-- A CONSTRUCT, an accepted RESEED, a reset, and nothing presented. -/
theorem test_witness_OneResponsePerCommand :
    ((present (.command (encode (.construct 3 5))) unc).pending = [.command (encode (.construct 3 5))] ∧
      decode (encode (.construct 3 5)) = .ok (.construct 3 5)) ∧
    ((present (.command (encode (.reseed 5))) (con Config.doc 9 1)).pending = [.command (encode (.reseed 5))] ∧
      decode (encode (.reseed 5)) = .ok (.reseed 5) ∧ (present (.command (encode (.reseed 5))) (con Config.doc 9 1)).gen = some ⟨9, 1⟩) ∧
    (present .reset unc).pending = [.reset] ∧ unc.pending = [] :=
  ⟨⟨rfl, rfl⟩, ⟨rfl, rfl, rfl⟩, rfl, rfl⟩

theorem test_witness_ResetEndsGenerator :
    (∀ wsel x, Instr.generate ≠ .construct wsel x) ∧ ∀ wsel x, Instr.reseed 5 ≠ .construct wsel x := ⟨nofun, nofun⟩

theorem test_witness_StateAfterReset :
    (∃ t, step (present .reset (con Config.doc 9 1)) = .next t) ∧ ∃ t, step (present (.command 0) unc) = .next t :=
  ⟨⟨_, rfl⟩, _, rfl⟩

/-- The start, the middle and the end of what is presented. -/
theorem test_witness_RunAnswersEveryCommand :
    ∃ s : State, s.pending = [.reset, .command 3] ∧ 0 ≤ s.pending.length ∧ 1 ≤ s.pending.length ∧ 2 ≤ s.pending.length :=
  ⟨⟨Config.doc, none, [.reset, .command 3], []⟩, rfl, by decide, by decide, by decide⟩

/-- One instance constructed and with responses behind it, the other not. -/
theorem test_witness_RunsAreReproducible :
    ∃ (s u : State) (xs : List HostInput), s ≠ u ∧ s.cfg = u.cfg ∧ s.pending = .reset :: xs ∧ u.pending = .reset :: xs :=
  ⟨⟨Config.doc, some ⟨9, 1⟩, [.reset, .command 0x19, .command 3], [⟨.ok, 4⟩]⟩,
    ⟨Config.doc, none, [.reset, .command 0x19, .command 3], []⟩, [.command 0x19, .command 3], by decide, rfl, rfl, rfl⟩

theorem test_witness_InstancesAreIsolated :
    (0 : Fin 2) ≠ 1 ∧ List.Perm [(0 : Fin 2), 1, 0] [1, 0, 0] := ⟨by decide, List.Perm.swap 1 0 [0]⟩

/-- Two requesters: one sends NEXT twice, the other an ill-formed word, which arrives between the two. -/
theorem test_witness_SharedInstanceAnswersAll :
    Merge [[3, 3], [0]] ([3, 0, 3] : List CommandBits) ∧
    (⟨Config.doc, none, asCommands [3, 0, 3], []⟩ : State).pending = asCommands [3, 0, 3] := by
  refine ⟨?_, rfl⟩
  refine Merge.pick [] 3 [3] [[0]] _ (Merge.pick [[3]] 0 [] [] _ (Merge.pick [] 3 [] [[]] _ (Merge.done _ ?_)))
  decide

end Sys2Proof.Tests
end

section
/-! PROOFS. What one step does to the state (20_memory.md R46): facts about `exec` and `step` that later proofs cite. -/

namespace Sys2Proof.Machine

/-! ### Commands -/

/-- R76: CONSTRUCT stores the seed and the width, in every state. -/
theorem exec_construct_eq (wsel : BitVec 2) (seed : U64) (s : State) :
    exec (.construct wsel seed) s =
      .next { s with gen := some ⟨seed, wsel⟩, responses := s.responses ++ [⟨.ok, 0⟩] } := by
  rw [exec, execConstruct, algInit_eq]
  rfl

/-- R132, R24: every command but CONSTRUCT first checks `INIT`, and then leaves a generator of the width it found. -/
theorem exec_eq_whenConstructed {i : Instr} (hi : ∀ wsel x, i ≠ .construct wsel x) (s : State) :
    ∃ f, exec i s = .next (whenConstructed s f) ∧
      ∀ g, s.gen = some g → (f g).gen.map Generator.WSEL = some g.WSEL := by
  cases i with
  | construct wsel x => exact absurd rfl (hi wsel x)
  | reseed x => exact ⟨_, rfl, fun _ _ => rfl⟩
  | next => exact ⟨_, rfl, fun _ _ => rfl⟩
  | generate => exact ⟨_, rfl, fun _ _ => rfl⟩
  | readState => exact ⟨_, rfl, fun g hg => congrArg (Option.map Generator.WSEL) hg⟩
  | generateRange a b =>
    refine ⟨_, rfl, fun g hg => ?_⟩
    dsimp only
    split
    · exact congrArg (Option.map Generator.WSEL) hg
    · rfl

/-- R132: while `INIT = 0` every command but CONSTRUCT is answered NOT_CONSTRUCTED and changes nothing else. -/
theorem exec_of_gen_none {i : Instr} {s : State} (hs : s.gen = none) (hi : ∀ wsel x, i ≠ .construct wsel x) :
    exec i s = .next { s with responses := s.responses ++ [⟨.notConstructed, 0⟩] } := by
  obtain ⟨f, hf, -⟩ := exec_eq_whenConstructed hi s
  rw [hf, whenConstructed_none hs, raise_eq]

/-- R25, R26: no command but CONSTRUCT makes a generator, removes one or changes its width. -/
theorem exec_keeps_width {i : Instr} {s t : State} (hi : ∀ wsel x, i ≠ .construct wsel x) (h : exec i s = .next t) :
    t.gen.map Generator.WSEL = s.gen.map Generator.WSEL := by
  obtain ⟨f, hf, hw⟩ := exec_eq_whenConstructed hi s
  obtain rfl : whenConstructed s f = t := Host.Outcome.next.inj (hf.symm.trans h)
  cases hs : s.gen with
  | none => rw [whenConstructed_none hs, raise_eq, hs]
  | some g => rw [whenConstructed_some hs, hw g hs, Option.map_some]

/-! ### One step, by what the host presents next -/

theorem step_of_pending_nil {s : State} (h : s.pending = []) : step s = .next s := by
  rw [step, takeInput_nil h]
  rfl

theorem step_of_reset {s : State} {rest : List HostInput} (h : s.pending = .reset :: rest) :
    step s = .next { s with gen := none, pending := rest } := by
  rw [step, takeInput_cons h]
  rfl

theorem step_of_decode_ok {s : State} {w : CommandBits} {rest : List HostInput} {i : Instr}
    (h : s.pending = .command w :: rest) (hd : decode w = .ok i) : step s = exec i { s with pending := rest } := by
  simp only [step, takeInput_cons h, hd]

theorem step_of_decode_error {s : State} {w : CommandBits} {rest : List HostInput} {e : DecodeReject}
    (h : s.pending = .command w :: rest) (hd : decode w = .error e) :
    step s = .next { s with pending := rest, responses := s.responses ++ [⟨.illegalCommand, 0⟩] } := by
  simp only [step, takeInput_cons h, hd, illegalCommand, raise_eq]

/-- R47: a command word, legal or not, is taken and answered once, and nothing but the generator is written besides. -/
theorem step_command_answersOnce {s : State} {w : CommandBits} {rest : List HostInput}
    (h : s.pending = .command w :: rest) :
    ∃ t, step s = .next t ∧ AnswersOnce { s with pending := rest } t := by
  cases hd : decode w with
  | error e => exact ⟨_, step_of_decode_error h hd, s.gen, _, rfl⟩
  | ok i => rw [step_of_decode_ok h hd]; exact exec_answersOnce i _

/-- R167, R156: every step ends in a next state, and that state has the configuration of the one before. -/
theorem step_completes (s : State) : ∃ t, step s = .next t ∧ t.cfg = s.cfg := by
  cases hp : s.pending with
  | nil => exact ⟨s, step_of_pending_nil hp, rfl⟩
  | cons x rest =>
    cases x with
    | reset => exact ⟨_, step_of_reset hp, rfl⟩
    | command w =>
      obtain ⟨t, ht, gen, r, rfl⟩ := step_command_answersOnce hp
      exact ⟨_, ht, rfl⟩

theorem step_keeps_cfg {s t : State} (h : step s = .next t) : t.cfg = s.cfg := by
  obtain ⟨u, hu, hcfg⟩ := step_completes s
  obtain rfl : u = t := Host.Outcome.next.inj (hu.symm.trans h)
  exact hcfg

/-- R25, R26: a step applies a reset, or runs a CONSTRUCT, or keeps whether there is a generator and its width. -/
theorem step_gen_cases {s t : State} (h : step s = .next t) :
    (∃ rest, s.pending = .reset :: rest ∧ t.gen = none) ∨
    (∃ w rest wsel x, s.pending = .command w :: rest ∧ decode w = .ok (.construct wsel x) ∧ t.gen = some ⟨x, wsel⟩) ∨
    t.gen.map Generator.WSEL = s.gen.map Generator.WSEL := by
  cases hp : s.pending with
  | nil =>
    rw [step_of_pending_nil hp] at h
    cases h
    exact .inr (.inr rfl)
  | cons x rest =>
    cases x with
    | reset =>
      rw [step_of_reset hp] at h
      cases h
      exact .inl ⟨rest, rfl, rfl⟩
    | command w =>
      cases hd : decode w with
      | error e =>
        rw [step_of_decode_error hp hd] at h
        cases h
        exact .inr (.inr rfl)
      | ok i =>
        rw [step_of_decode_ok hp hd] at h
        by_cases hi : ∃ wsel x, i = .construct wsel x
        · obtain ⟨wsel, x, rfl⟩ := hi
          rw [exec_construct_eq] at h
          cases h
          exact .inr (.inl ⟨w, rest, wsel, x, rfl, hd, rfl⟩)
        · push Not at hi
          exact .inr (.inr (exec_keeps_width (s := { s with pending := rest }) hi h))

theorem INIT_eq_of_width_eq {s t : State} (h : t.gen.map Generator.WSEL = s.gen.map Generator.WSEL) :
    t.INIT = s.INIT := by
  rw [State.INIT, State.INIT, ← Option.isSome_map, h, Option.isSome_map]

/-! ### Instances -/

/-- R33: an instance takes its own step, in its own place. -/
theorem stepInstance_eq {n : Nat} {v : Vector State n} {k : Fin n} {t : State} (h : step v[k] = .next t) :
    stepInstance k v = .next (v.set k t) := by
  simp only [stepInstance, h]

theorem stepInstances_cons {n : Nat} {v u : Vector State n} {k : Fin n} (ks : List (Fin n))
    (h : stepInstance k v = .next u) : stepInstances (k :: ks) v = stepInstances ks u := by
  simp only [stepInstances, h]

/-- R48: two instances that step one after the other may step in either order. -/
theorem stepInstances_swap {n : Nat} (j k : Fin n) (ks : List (Fin n)) (v : Vector State n) :
    stepInstances (j :: k :: ks) v = stepInstances (k :: j :: ks) v := by
  by_cases hjk : j = k
  · rw [hjk]
  · have hne : (j : Nat) ≠ k := Fin.val_ne_of_ne hjk
    obtain ⟨a, ha, -⟩ := step_completes v[j]
    obtain ⟨b, hb, -⟩ := step_completes v[k]
    have hbj : step (v.set j a)[k] = .next b := by
      rw [Fin.getElem_fin, Vector.getElem_set_ne _ _ hne]; exact hb
    have hak : step (v.set k b)[j] = .next a := by
      rw [Fin.getElem_fin, Vector.getElem_set_ne _ _ hne.symm]; exact ha
    rw [stepInstances_cons _ (stepInstance_eq ha), stepInstances_cons _ (stepInstance_eq hbj),
      stepInstances_cons _ (stepInstance_eq hb), stepInstances_cons _ (stepInstance_eq hak), Vector.set_comm _ _ hne]

theorem stepInstances_perm {n : Nat} {ks js : List (Fin n)} (h : ks.Perm js) (v : Vector State n) :
    stepInstances ks v = stepInstances js v := by
  induction h generalizing v with
  | nil => rfl
  | cons k _ ih =>
    obtain ⟨t, ht, -⟩ := step_completes v[k]
    rw [stepInstances_cons _ (stepInstance_eq ht), stepInstances_cons _ (stepInstance_eq ht), ih]
  | swap j k ks => exact stepInstances_swap k j ks v
  | trans _ _ ih₁ ih₂ => rw [ih₁, ih₂]

end Sys2Proof.Machine
end

section
/-! PROOFS. The statements about 10_state.md: width, lifecycle flag, reset, instances. -/

open Sys2Proof Sys2Proof.Machine

/-- Settles O43: of the three things a step can do to the generator, a reset leaves none, the third keeps the width, and what is left
is a CONSTRUCT. -/
theorem widthChangesOnlyByConstruct : Obligations.WidthChangesOnlyByConstruct := by
  intro s t g h hg hh hstep hne
  obtain ⟨_, _, hnone⟩ | ⟨w, rest, wsel, x, hp, hd, hgen⟩ | hkept := step_gen_cases hstep
  · simp [hnone] at hh
  · obtain rfl : h = ⟨x, wsel⟩ := Option.some.inj (hh.symm.trans hgen)
    exact ⟨w, rest, hp, hd⟩
  · simp [hg, hh, hne] at hkept

/-- Settles O44, from the same three cases; what a reset and a CONSTRUCT leave, and what is refused before construction, are laws of
`step` and `exec`. -/
theorem initSetByConstructClearedByReset : Obligations.InitSetByConstructClearedByReset := by
  refine ⟨fun s t hstep => ⟨fun hs ht => ?_, fun hs ht => ?_, fun rest hp => ?_, fun w rest wsel x hp hd => ?_⟩,
    fun s i hs hi => exec_of_gen_none ((INIT_eq_false_iff s).mp hs) hi⟩
  · obtain ⟨rest, hp, -⟩ | ⟨_, _, _, _, -, -, hgen⟩ | hkept := step_gen_cases hstep
    · exact ⟨rest, hp⟩
    · simp [State.INIT, hgen] at ht
    · simp [INIT_eq_of_width_eq hkept, hs] at ht
  · obtain ⟨_, -, hnone⟩ | ⟨w, rest, wsel, x, hp, hd, -⟩ | hkept := step_gen_cases hstep
    · simp [State.INIT, hnone] at ht
    · exact ⟨w, rest, wsel, x, hp, hd⟩
    · simp [INIT_eq_of_width_eq hkept, hs] at ht
  · rw [step_of_reset hp] at hstep
    cases hstep
    rfl
  · rw [step_of_decode_ok hp hd, exec_construct_eq] at hstep
    cases hstep
    rfl

/-- Settles O54: a step writes one place of the vector, and two steps in different places commute, since each reads only its own. -/
theorem instancesAreIsolated : Obligations.InstancesAreIsolated := by
  refine ⟨fun n v k => ?_, fun n v ks js h => stepInstances_perm h v⟩
  obtain ⟨t, ht, -⟩ := step_completes v[k]
  refine ⟨t, v.set k t, ht, stepInstance_eq ht, Vector.getElem_set_self _, fun j hjk => ?_⟩
  exact Vector.getElem_set_ne _ _ (Fin.val_ne_of_ne hjk.symm)

/-- Settles O50: the reset state's fields by definition, the rest from what a step does with a command word, with a reset, and with
the configuration. -/
theorem stateAfterReset : Obligations.StateAfterReset := by
  refine ⟨rfl, rfl, rfl, fun w => ?_, fun s t hstep => ?_, fun s t => step_keeps_cfg⟩
  · obtain ⟨t, ht, _, r, rfl⟩ := step_command_answersOnce (s := present (.command w) State.reset) rfl
    exact ⟨_, r, ht, rfl⟩
  · rw [step_of_reset rfl] at hstep
    cases hstep
    exact ⟨rfl, rfl⟩

end

section
/-! PROOFS. Little-endian byte strings (20_memory.md R42): the bytes of a value at any width, and the number they stand for. -/

namespace Sys2Proof

theorem byteAt_toNat {n : Nat} (w : BitVec n) (i : Nat) : (byteAt w i).toNat = w.toNat / 256 ^ i % 256 := by
  rw [byteAt, BitVec.extractLsb'_toNat, Nat.shiftRight_eq_div_pow, Nat.pow_mul]

theorem bytesNumber_concat (xs : List Byte) (x : Byte) :
    bytesNumber (xs ++ [x]) = bytesNumber xs + 256 ^ xs.length * x.toNat := by
  induction xs with
  | nil => simp [bytesNumber]
  | cons y ys ih =>
    simp only [List.cons_append, bytesNumber, ih, List.length_cons, pow_succ']
    ring

theorem getElem?_map_byteAt {n m k : Nat} (w : BitVec n) (hk : k < m) :
    ((List.range m).map (byteAt w))[k]? = some (w.extractLsb' (8 * k) 8) := by
  rw [List.getElem?_map, List.getElem?_range hk]
  rfl

/-- The low `m` bytes of a value stand for its residue: each further byte is one more digit in base 256. -/
theorem bytesNumber_map_byteAt {n : Nat} (w : BitVec n) (m : Nat) :
    bytesNumber ((List.range m).map (byteAt w)) = w.toNat % 256 ^ m := by
  induction m with
  | zero => simp [bytesNumber, Nat.mod_one]
  | succ m ih =>
    rw [List.range_succ, List.map_append, List.map_singleton, bytesNumber_concat, ih, List.length_map, List.length_range,
      byteAt_toNat, Nat.mod_pow_succ]

/-! ### Command words -/

@[simp] theorem wordBytes_length (w : CommandBits) : (wordBytes w).length = 17 := by
  rw [wordBytes, List.length_map, List.length_range]

@[simp] theorem bytesNumber_wordBytes (w : CommandBits) : bytesNumber (wordBytes w) = w.toNat := by
  rw [wordBytes, bytesNumber_map_byteAt]
  exact Nat.mod_eq_of_lt w.isLt

@[simp] theorem wordOfBytes_wordBytes (w : CommandBits) : wordOfBytes (wordBytes w) = some w := by
  rw [wordOfBytes, if_pos (wordBytes_length w), bytesNumber_wordBytes, BitVec.ofNat_toNat, BitVec.setWidth_eq]

@[simp] theorem decodeBytes_wordBytes (w : CommandBits) : decodeBytes (wordBytes w) = decode w := by
  rw [decodeBytes, wordOfBytes_wordBytes]

end Sys2Proof

namespace Sys2Proof.Machine

/-! ### The data of a response -/

@[simp] theorem responseDataBytes_length (r : Response) : (responseDataBytes r).length = 8 := by
  rw [responseDataBytes, List.length_map, List.length_range]

@[simp] theorem bytesNumber_responseDataBytes (r : Response) : bytesNumber (responseDataBytes r) = r.data.toNat := by
  rw [responseDataBytes, bytesNumber_map_byteAt]
  exact Nat.mod_eq_of_lt r.data.isLt

end Sys2Proof.Machine
end

section
/-! PROOFS. The statement about 20_memory.md: byte strings. -/

open Sys2Proof Sys2Proof.Machine

/-- Settles O9: a value's bytes are its digits in base 256, and 17 of them hold a word, 8 a response's data. -/
theorem byteStringsAreLittleEndian : Obligations.ByteStringsAreLittleEndian :=
  ⟨fun w => ⟨wordBytes_length w, fun _ => getElem?_map_byteAt w, bytesNumber_wordBytes w, decodeBytes_wordBytes w⟩,
    fun r => ⟨responseDataBytes_length r, fun _ => getElem?_map_byteAt r.data, bytesNumber_responseDataBytes r⟩⟩

end

section
/-! PROOFS. Command words (30_encoding.md R56, R63, R68): the fields of a word and its number, the control byte that alone decides
legality, and the decoder on each. -/

namespace Sys2Proof

/-! ### A word and its fields -/

theorem toNat_append_eq_add {m n : Nat} (x : BitVec m) (y : BitVec n) : (x ++ y).toNat = x.toNat * 2 ^ n + y.toNat := by
  rw [BitVec.toNat_append, ← Nat.shiftLeft_add_eq_or_of_lt y.isLt, Nat.shiftLeft_eq]

/-- R56: a command word as a number. -/
theorem packFields_toNat (c : CmdWord) : (packFields c).toNat =
    c.b.toNat * 2 ^ 72 + c.a.toNat * 2 ^ 8 + c.rsv.toNat * 2 ^ 5 + c.wsel.toNat * 2 ^ 3 + c.op.toNat := by
  simp only [packFields, toNat_append_eq_add]
  ring

/-- R56: the five fields cover the word; each append joins a field to those below it. -/
@[simp] theorem packFields_fieldsOf (w : CommandBits) : packFields (fieldsOf w) = w := by
  rw [packFields, fieldsOf, BitVec.extractLsb'_append_extractLsb'_eq_extractLsb' (rfl : 72 = 8 + 64),
    BitVec.extractLsb'_append_extractLsb'_eq_extractLsb' (rfl : 8 = 5 + 3),
    BitVec.extractLsb'_append_extractLsb'_eq_extractLsb' (rfl : 5 = 3 + 2),
    BitVec.extractLsb'_append_extractLsb'_eq_extractLsb' (rfl : 3 = 0 + 3)]
  exact BitVec.extractLsb'_eq_self

/-! ### The control byte -/

theorem fieldsOf_of_controlByte {w : CommandBits} {c : Byte} (h : w.setWidth 8 = c) :
    fieldsOf w =
      ⟨c.extractLsb' 0 3, c.extractLsb' 3 2, c.extractLsb' 5 3, w.extractLsb' 8 64, w.extractLsb' 72 64⟩ := by
  subst h
  rw [BitVec.extractLsb'_setWidth_of_le (by decide), BitVec.extractLsb'_setWidth_of_le (by decide),
    BitVec.extractLsb'_setWidth_of_le (by decide)]
  rfl

/-- A test of a word under a mask of the control byte is the test of the control byte. -/
theorem and_mask_eq_iff (w : CommandBits) (m v : Byte) :
    w &&& m.setWidth 136 = v.setWidth 136 ↔ w.setWidth 8 &&& m = v := by
  have hmask : w &&& m.setWidth 136 = (w.setWidth 8 &&& m).setWidth 136 := by
    ext i hi
    simp only [BitVec.getElem_and, BitVec.getElem_setWidth, BitVec.getLsbD_and, BitVec.getLsbD_setWidth]
    grind
  rw [hmask]
  refine ⟨fun h => ?_, congrArg _⟩
  have h8 := congrArg (BitVec.setWidth 8) h
  rwa [BitVec.setWidth_setWidth_of_le _ (by decide), BitVec.setWidth_setWidth_of_le _ (by decide), BitVec.setWidth_eq,
    BitVec.setWidth_eq] at h8

/-- The control bytes of the legal words (R68). -/
def legalControlBytes : List Byte := [0x01, 0x09, 0x11, 0x19, 0x02, 0x03, 0x04, 0x05, 0x06]

/-- R63: legality depends on the control byte alone. -/
theorem legal_fieldsOf_iff (w : CommandBits) : (fieldsOf w).legal = true ↔ w.setWidth 8 ∈ legalControlBytes := by
  have hbyte : ∀ c : Byte,
      (CmdWord.mk (c.extractLsb' 0 3) (c.extractLsb' 3 2) (c.extractLsb' 5 3) 0 0).legal = true ↔ c ∈ legalControlBytes := by
    decide
  rw [fieldsOf_of_controlByte rfl]
  exact hbyte (w.setWidth 8)

theorem opAssigned_iff (op : BitVec 3) : (1 ≤ op.toNat ∧ op.toNat ≤ 6) ↔ ¬(op = 0 ∨ op = 7) := by
  revert op
  decide

/-! ### The decoder -/

theorem decodeFields_reservedBits {c : CmdWord} (h : c.rsv ≠ 0) : decodeFields c = .error .reservedBits := if_pos h

theorem decodeFields_reservedOpcode {c : CmdWord} (hrsv : c.rsv = 0) (hop : c.op = 0 ∨ c.op = 7) :
    decodeFields c = .error .reservedOpcode := by
  rw [decodeFields, if_neg (not_not.mpr hrsv), if_pos hop]

theorem decodeFields_widthOutsideConstruct {c : CmdWord} (hrsv : c.rsv = 0) (hop : ¬(c.op = 0 ∨ c.op = 7))
    (hone : c.op ≠ 1) (hwsel : c.wsel ≠ 0) : decodeFields c = .error .widthOutsideConstruct := by
  rw [decodeFields, if_neg (not_not.mpr hrsv), if_neg hop, if_neg hone, if_pos hwsel]

theorem decodeFields_ok_of_legal {c : CmdWord} (h : c.legal = true) : ∃ i, decodeFields c = .ok i := by
  obtain ⟨hrsv, hop, hwsel⟩ := (legal_iff c).mp h
  rw [decodeFields, if_neg (not_not.mpr hrsv), if_neg ((opAssigned_iff c.op).mp hop)]
  by_cases hone : c.op = 1
  · exact ⟨_, if_pos hone⟩
  · rw [if_neg hone, if_neg (not_not.mpr (hwsel.resolve_right hone))]
    split_ifs <;> exact ⟨_, rfl⟩

/-- R64, R65, R66: a word that fails one of the three checks is rejected, by the name of the first it fails. -/
theorem decodeFields_error_of_not_legal {c : CmdWord} (h : ¬c.legal = true) : ∃ e, decodeFields c = .error e := by
  by_cases hrsv : c.rsv = 0
  · by_cases hop : c.op = 0 ∨ c.op = 7
    · exact ⟨_, decodeFields_reservedOpcode hrsv hop⟩
    · have hwidth : ¬(c.wsel = 0 ∨ c.op = 1) := fun hw => h ((legal_iff c).mpr ⟨hrsv, (opAssigned_iff c.op).mpr hop, hw⟩)
      obtain ⟨hwsel, hone⟩ := not_or.mp hwidth
      exact ⟨_, decodeFields_widthOutsideConstruct hrsv hop hone hwsel⟩
  · exact ⟨_, decodeFields_reservedBits hrsv⟩

/-- R63: a word selects a command exactly when it is legal. -/
theorem decode_ok_iff_legal (w : CommandBits) : (∃ i, decode w = .ok i) ↔ (fieldsOf w).legal = true := by
  refine ⟨fun ⟨i, hi⟩ => ?_, decodeFields_ok_of_legal⟩
  by_contra hl
  obtain ⟨e, he⟩ := decodeFields_error_of_not_legal hl
  cases hi.symm.trans he

theorem decode_ok_iff_controlByte (w : CommandBits) : (∃ i, decode w = .ok i) ↔ w.setWidth 8 ∈ legalControlBytes :=
  (decode_ok_iff_legal w).trans (legal_fieldsOf_iff w)

/-- R68, first test: the width selection is outside the mask. -/
theorem decode_of_construct_mask {w : CommandBits} (h : w &&& 0xE7 = 0x01) :
    decode w = .ok (.construct (w.extractLsb' 3 2) (w.extractLsb' 8 64)) := by
  have hbyte : ∀ c : Byte, c &&& 0xE7 = 0x01 → c.extractLsb' 0 3 = 1 ∧ c.extractLsb' 5 3 = 0 := by decide
  obtain ⟨hop, hrsv⟩ := hbyte _ ((and_mask_eq_iff w 0xE7 0x01).mp h)
  rw [decode, fieldsOf_of_controlByte rfl, hop, hrsv, BitVec.extractLsb'_setWidth_of_le (by decide)]
  rfl

/-- R68, the other five tests: they fix the whole control byte. -/
theorem decode_of_full_mask {w : CommandBits} (c : Byte) (h : w &&& 0xFF = c.setWidth 136) :
    decode w = decodeFields
      ⟨c.extractLsb' 0 3, c.extractLsb' 3 2, c.extractLsb' 5 3, w.extractLsb' 8 64, w.extractLsb' 72 64⟩ := by
  have hc : w.setWidth 8 &&& 0xFF = c := (and_mask_eq_iff w 0xFF c).mp h
  rw [decode, fieldsOf_of_controlByte (BitVec.and_allOnes.symm.trans hc)]

/-- R70: every command's canonical word decodes to it. -/
theorem decode_encode (i : Instr) : decode (encode i) = .ok i := by
  rw [encode, decode_packFields]
  cases i <;> rfl

end Sys2Proof

namespace Sys2Proof.Machine

/-! ### A step on an ill-formed word, and a response's bits -/

/-- R131: an ill-formed word is answered ILLEGAL_COMMAND and nothing else changes, whatever the state. -/
theorem step_present_of_decode_error {w : CommandBits} {e : DecodeReject} (h : decode w = .error e) (s : State) :
    step (present (.command w) s) = .next { s with responses := s.responses ++ [⟨.illegalCommand, 0⟩] } :=
  step_of_decode_error rfl h

@[simp] theorem extractLsb'_data_responseBits (r : Response) : (responseBits r).extractLsb' 0 64 = r.data :=
  BitVec.extractLsb'_append_eq_right

@[simp] theorem extractLsb'_status_responseBits (r : Response) : (responseBits r).extractLsb' 64 2 = statusCode r.status :=
  BitVec.extractLsb'_append_eq_left

end Sys2Proof.Machine
end

section
/-! PROOFS. GENERATE_RANGE (42_range_sampler.md R114): an accepted range, and the range of one value. -/

namespace Sys2Proof.Machine

theorem zext64_boundOf {W : Nat} (h : W ≤ 64) (x : U64) : zext64 (boundOf W x) = BitVec.ofNat 64 (x.toNat % 2 ^ W) := by
  apply BitVec.eq_of_toNat_eq
  rw [zext64_toNat h, boundOf_toNat, BitVec.toNat_ofNat]
  exact (Nat.mod_eq_of_lt (lt_of_le_of_lt (Nat.mod_le _ _) x.isLt)).symm

/-- R117: a range of one value has span 1, so that every draw leaves remainder 0. -/
theorem rangeValue_self {W : Nat} (x r : BitVec W) : rangeValue x x r = x := by
  have hspan : rangeSpan x x = 1#(W + 1) := by
    rw [rangeSpan, BitVec.sub_self, BitVec.zero_add]
    rfl
  rw [rangeValue, hspan, BitVec.umod_one, BitVec.setWidth_zero, BitVec.add_zero]

/-- R114: bounds in order take one engine step and answer its draw reduced to the range. -/
theorem exec_generateRange_of_le {s : State} {g : Generator} {a b : U64} (hs : s.gen = some g)
    (h : boundOf (widthBits g.WSEL) a ≤ boundOf (widthBits g.WSEL) b) :
    exec (.generateRange a b) s = .next { s with
      gen := some { g with S := g.S + s.cfg.wyInc },
      responses := s.responses ++ [⟨.ok, zext64 (rangeValue (boundOf (widthBits g.WSEL) a) (boundOf (widthBits g.WSEL) b)
        (proj (widthBits g.WSEL) (mix s.cfg (g.S + s.cfg.wyInc))))⟩] } := by
  rw [exec, execGenerateRange, whenConstructed_some hs, if_neg (BitVec.not_lt.mpr h), engineStep_eq]
  rfl

end Sys2Proof.Machine
end

section
/-! PROOFS. The statements about 30_encoding.md: command words, the decoder, pseudo-commands, responses. -/

open Sys2Proof Sys2Proof.Machine

/-- Settles O1: the six tests read the control byte only; a word that matches none has none of the nine legal control bytes. -/
theorem decodeByMaskAndMatch : Obligations.DecodeByMaskAndMatch := by
  intro w
  refine ⟨decode_of_construct_mask, decode_of_full_mask 0x02, decode_of_full_mask 0x03, decode_of_full_mask 0x04,
    decode_of_full_mask 0x05, decode_of_full_mask 0x06, fun h1 h2 h3 h4 h5 h6 => ?_, decode_ok_iff_controlByte w⟩
  have hbyte : ∀ c ∈ legalControlBytes, c &&& 0xE7 ≠ 0x01 → c &&& 0xFF ≠ 0x02 → c &&& 0xFF ≠ 0x03 → c &&& 0xFF ≠ 0x04 →
      c &&& 0xFF ≠ 0x05 → c &&& 0xFF = 0x06 := by decide
  refine decodeFields_error_of_not_legal fun hl => h6 ((and_mask_eq_iff w 0xFF 0x06).mpr ?_)
  exact hbyte _ ((legal_fieldsOf_iff w).mp hl) (mt (and_mask_eq_iff w 0xE7 0x01).mpr h1)
    (mt (and_mask_eq_iff w 0xFF 0x02).mpr h2) (mt (and_mask_eq_iff w 0xFF 0x03).mpr h3)
    (mt (and_mask_eq_iff w 0xFF 0x04).mpr h4) (mt (and_mask_eq_iff w 0xFF 0x05).mpr h5)

/-- Settles O2: decoding succeeds exactly on the legal words, legality is a property of the control byte, and a step on any other word
is ILLEGAL_COMMAND. -/
theorem legalWordsAreTheCommands : Obligations.LegalWordsAreTheCommands := by
  intro w
  refine ⟨?_, fun v hv => ?_, ?_⟩
  · rw [decode_ok_iff_legal, legal_iff, and_assoc]
    rfl
  · rw [decode_ok_iff_controlByte, decode_ok_iff_controlByte, hv]
  · cases hd : decode w with
    | ok i => exact .inl ⟨i, rfl⟩
    | error e => exact .inr (step_present_of_decode_error hd)

/-- Settles O3: each of the four conditions contradicts one of the three checks of legality. -/
theorem reservedEncodingsAreIllegal : Obligations.ReservedEncodingsAreIllegal := by
  intro w s hbad
  have hnot : ¬(fieldsOf w).legal = true := by
    intro hl
    obtain ⟨hrsv, hop, hwsel⟩ := (legal_iff _).mp hl
    obtain ⟨h0, h7⟩ := not_or.mp ((opAssigned_iff _).mp hop)
    obtain hb | hb | hb | ⟨hw, h1⟩ := hbad
    · exact h0 hb
    · exact h7 hb
    · exact hb hrsv
    · exact hwsel.elim hw h1
  obtain ⟨e, he⟩ := decodeFields_error_of_not_legal hnot
  exact ⟨⟨e, he⟩, step_present_of_decode_error he s⟩

/-- Settles O11: equal bounds are in order, and the range of one value answers that value after its engine step. -/
theorem pseudoCommandsExpand : Obligations.PseudoCommandsExpand := by
  refine ⟨fun _ _ => rfl, fun _ => rfl, fun s g x hs => ?_⟩
  rw [pseudoGenerateOne, exec_generateRange_of_le hs (BitVec.le_refl _), rangeValue_self,
    zext64_boundOf (widthBits_le g.WSEL)]
  rfl

/-- Settles O7: the fields packed are a number in mixed base, and the five fields cover the word. -/
theorem commandWordAsNumber : Obligations.CommandWordAsNumber := ⟨packFields_toNat, packFields_fieldsOf⟩

/-- Settles O8: the encoder gives the three written words, so that they decode to their commands; the other two fail the width check
and the opcode check. -/
theorem workedWordsDecode : Obligations.WorkedWordsDecode :=
  ⟨rfl, decode_encode (.construct 1 0xDEADBEEF), rfl, decode_encode (.generateRange 0xC0 0xDE), rfl, decode_encode .generate,
    decodeFields_widthOutsideConstruct rfl (by decide) (by decide) (by decide), decodeFields_reservedOpcode rfl (.inl rfl)⟩

/-- Settles O10: a command word is answered once, and a response's status field holds the code of its status. -/
theorem responseWordFields : Obligations.ResponseWordFields := by
  refine ⟨fun s w => ?_, fun r => ⟨extractLsb'_data_responseBits r, ?_⟩⟩
  · obtain ⟨t, ht, gen, r, rfl⟩ := step_command_answersOnce (s := present (.command w) s) rfl
    exact ⟨r, _, ht, rfl⟩
  · rw [extractLsb'_status_responseBits]
    exact ⟨congrArg statusCode, congrArg statusCode, congrArg statusCode, congrArg statusCode⟩

end

section
/-! PROOFS. The engine (40_wyrand_engine.md R79 to R84, R90): `mix` in exact arithmetic, what each command does on a constructed
instance, and the data of its response. -/

namespace Sys2Proof

/-- R68, R77, R83, R84: a word written as operands and control byte is decoded from that byte and the operands. -/
theorem decode_append_controlByte (a b : U64) (c : Byte) :
    decode (b ++ a ++ c) = decodeFields ⟨c.extractLsb' 0 3, c.extractLsb' 3 2, c.extractLsb' 5 3, a, b⟩ := by
  have ha : (b ++ a ++ c).extractLsb' 8 64 = a := by
    rw [BitVec.extractLsb'_append_eq_of_le le_rfl, Nat.sub_self, BitVec.extractLsb'_append_eq_right]
  have hb : (b ++ a ++ c).extractLsb' 72 64 = b := by
    rw [BitVec.extractLsb'_append_eq_of_le (by decide), BitVec.extractLsb'_append_eq_left]
  rw [decode, fieldsOf_of_controlByte BitVec.setWidth_append_eq_right, ha, hb]

end Sys2Proof

namespace Sys2Proof.Machine

/-! ### The mix function -/

/-- R81: the product of two 64-bit factors fits in 128 bits. -/
theorem mixProduct_toNat (c : Config) (s : U64) : (mixProduct c s).toNat = s.toNat * (s ^^^ c.wyMask).toNat := by
  rw [mixProduct, BitVec.toNat_mul, BitVec.toNat_setWidth_of_le (by decide), BitVec.toNat_setWidth_of_le (by decide)]
  exact Nat.mod_eq_of_lt BitVec.toNat_mul_toNat_lt

/-- R81: the upper half of the product is its quotient by `2^64`, the lower half its remainder. -/
theorem mix_toNat (c : Config) (s : U64) :
    (mix c s).toNat = ((mixProduct c s).toNat / 2 ^ 64) ^^^ ((mixProduct c s).toNat % 2 ^ 64) := by
  have hupper : (mixProduct c s).toNat / 2 ^ 64 < 2 ^ 64 := Nat.div_lt_of_lt_mul (mixProduct c s).isLt
  rw [mix, BitVec.toNat_xor, BitVec.extractLsb'_toNat, BitVec.extractLsb'_toNat, Nat.shiftRight_eq_div_pow,
    Nat.mod_eq_of_lt hupper, Nat.shiftRight_zero]

/-! ### Commands on a constructed instance -/

/-- R77: the seed replaces `S`; the width stays. -/
theorem exec_reseed_of_gen_some {s : State} {g : Generator} (hs : s.gen = some g) (seed : U64) :
    exec (.reseed seed) s =
      .next { s with gen := some ⟨seed, g.WSEL⟩, responses := s.responses ++ [⟨.ok, 0⟩] } := by
  rw [exec, execReseed, whenConstructed_some hs, algInit_eq]
  rfl

/-- R83: one engine step, and all 64 bits of its output. -/
theorem exec_next_of_gen_some {s : State} {g : Generator} (hs : s.gen = some g) :
    exec .next s = .next { s with
      gen := some { g with S := g.S + s.cfg.wyInc },
      responses := s.responses ++ [⟨.ok, mix s.cfg (g.S + s.cfg.wyInc)⟩] } := by
  rw [exec, execNext, whenConstructed_some hs, engineStep_eq]
  rfl

/-- R101: one engine step, and the low `W` bits of its output. -/
theorem exec_generate_of_gen_some {s : State} {g : Generator} (hs : s.gen = some g) :
    exec .generate s = .next { s with
      gen := some { g with S := g.S + s.cfg.wyInc },
      responses := s.responses ++ [⟨.ok, zext64 (proj (widthBits g.WSEL) (mix s.cfg (g.S + s.cfg.wyInc)))⟩] } := by
  rw [exec, execGenerate, whenConstructed_some hs, engineStep_eq]
  rfl

/-- R113: inverted bounds are answered INVALID_RANGE and change nothing else. -/
theorem exec_generateRange_of_lt {s : State} {g : Generator} {a b : U64} (hs : s.gen = some g)
    (h : boundOf (widthBits g.WSEL) b < boundOf (widthBits g.WSEL) a) :
    exec (.generateRange a b) s = .next { s with responses := s.responses ++ [⟨.invalidRange, 0⟩] } := by
  rw [exec, execGenerateRange, whenConstructed_some hs, if_pos h, raise_eq]

/-- R84: `S` is answered and nothing is written. -/
theorem exec_readState_of_gen_some {s : State} {g : Generator} (hs : s.gen = some g) :
    exec .readState s = .next { s with responses := s.responses ++ [⟨.ok, g.S⟩] } := by
  rw [exec, execReadState, whenConstructed_some hs]
  rfl

/-- R121: the bounds are compared on their low `W` bits. -/
theorem boundOf_le_boundOf_iff (W : Nat) (a b : U64) :
    boundOf W a ≤ boundOf W b ↔ a.toNat % 2 ^ W ≤ b.toNat % 2 ^ W := by
  rw [BitVec.le_def, boundOf_toNat, boundOf_toNat]

/-! ### The data of a response -/

/-- R90: the data that goes with status OK, by the command and the state before it. -/
def OkData (i : Instr) (s : State) (d : U64) : Prop :=
  match i with
  | .construct _ _ => d = 0
  | .reseed _ => d = 0
  | .next => ∃ g, s.gen = some g ∧ d = mix s.cfg (g.S + s.cfg.wyInc)
  | .generate => ∃ g, s.gen = some g ∧ d.toNat = (mix s.cfg (g.S + s.cfg.wyInc)).toNat % 2 ^ widthBits g.WSEL
  | .generateRange a b => ∃ g, s.gen = some g ∧
      d.toNat = (rangeValue (boundOf (widthBits g.WSEL) a) (boundOf (widthBits g.WSEL) b)
        (proj (widthBits g.WSEL) (mix s.cfg (g.S + s.cfg.wyInc)))).toNat
  | .readState => ∃ g, s.gen = some g ∧ d = g.S

/-- What R90 asks of the one response a command adds. -/
def AnswersByMux (i : Instr) (s t : State) : Prop :=
  ∃ r, t.responses = s.responses ++ [r] ∧ (r.status ≠ .ok → r.data = 0) ∧ (r.status = .ok → OkData i s r.data)

theorem answersByMux_refused {i : Instr} {s t : State} {st : Status} (hst : st ≠ .ok)
    (ht : t.responses = s.responses ++ [⟨st, 0⟩]) : AnswersByMux i s t :=
  ⟨_, ht, fun _ => rfl, fun h => absurd h hst⟩

theorem answersByMux_ok {i : Instr} {s t : State} {d : U64} (hd : OkData i s d)
    (ht : t.responses = s.responses ++ [⟨.ok, d⟩]) : AnswersByMux i s t :=
  ⟨_, ht, fun h => absurd rfl h, fun _ => hd⟩

/-- R90: every command, in every state, answers what the multiplexer drives for it. -/
theorem exec_answersByMux (i : Instr) (s : State) : ∃ t, exec i s = .next t ∧ AnswersByMux i s t := by
  cases hs : s.gen with
  | none =>
    cases i with
    | construct wsel x => exact ⟨_, exec_construct_eq wsel x s, answersByMux_ok rfl rfl⟩
    | _ => exact ⟨_, exec_of_gen_none hs nofun, answersByMux_refused (by decide) rfl⟩
  | some g =>
    cases i with
    | construct wsel x => exact ⟨_, exec_construct_eq wsel x s, answersByMux_ok rfl rfl⟩
    | reseed x => exact ⟨_, exec_reseed_of_gen_some hs x, answersByMux_ok rfl rfl⟩
    | next => exact ⟨_, exec_next_of_gen_some hs, answersByMux_ok ⟨g, hs, rfl⟩ rfl⟩
    | readState => exact ⟨_, exec_readState_of_gen_some hs, answersByMux_ok ⟨g, hs, rfl⟩ rfl⟩
    | generate =>
      exact ⟨_, exec_generate_of_gen_some hs,
        answersByMux_ok ⟨g, hs, (zext64_toNat (widthBits_le g.WSEL) _).trans (proj_toNat _ _)⟩ rfl⟩
    | generateRange a b =>
      by_cases hle : boundOf (widthBits g.WSEL) a ≤ boundOf (widthBits g.WSEL) b
      · exact ⟨_, exec_generateRange_of_le hs hle,
          answersByMux_ok ⟨g, hs, zext64_toNat (widthBits_le g.WSEL) _⟩ rfl⟩
      · exact ⟨_, exec_generateRange_of_lt hs (BitVec.not_le.mp hle), answersByMux_refused (by decide) rfl⟩

end Sys2Proof.Machine
end

section
/-! PROOFS. The statements about 40_wyrand_engine.md: loading, stepping and reading the state, the output multiplexer. -/

open Sys2Proof Sys2Proof.Machine

/-- Settles O12: the word is its fields packed, so that decoding reads them back, and a non-zero `rsv` among them is rejected. -/
theorem constructStoresSeedAndWidth : Obligations.ConstructStoresSeedAndWidth := by
  refine fun s wsel seed b => ⟨decode_packFields ⟨1, wsel, 0, seed, b⟩, exec_construct_eq wsel seed s, fun rsv hrsv => ?_⟩
  exact step_present_of_decode_error
    ((decode_packFields ⟨1, wsel, rsv, seed, b⟩).trans (decodeFields_reservedBits hrsv)) s

/-- Settles O13, from the law of RESEED on a constructed instance and the refusal before construction. -/
theorem reseedKeepsWidth : Obligations.ReseedKeepsWidth :=
  fun _ seed b => ⟨decode_append_controlByte seed b 0x02, fun _ hs => exec_reseed_of_gen_some hs seed,
    fun hs => exec_of_gen_none hs nofun⟩

/-- Settles O15: the engine step is a 64-bit addition, and the laws of the three stepping commands leave the generator it gives. -/
theorem engineStepAdvancesThenMixes : Obligations.EngineStepAdvancesThenMixes := by
  refine ⟨fun c g => ?_, fun s t g hs => ?_⟩
  · rw [engineStep_eq]
    exact ⟨BitVec.toNat_add _ _, rfl, rfl⟩
  · rw [engineStep_eq, exec_next_of_gen_some hs, exec_generate_of_gen_some hs]
    refine ⟨fun h => ?_, fun h => ?_, fun a b hab h => ?_⟩
    · cases h
      rfl
    · cases h
      rfl
    · rw [exec_generateRange_of_le hs ((boundOf_le_boundOf_iff _ a b).mpr hab)] at h
      cases h
      rfl

/-- Settles O16: the product does not overflow 128 bits, its halves are quotient and remainder by `2^64`, and XOR with all ones is
the complement. -/
theorem mixFoldsExactProduct : Obligations.MixFoldsExactProduct := by
  refine fun c s => ⟨mixProduct_toNat c s, ?_, fun hmask => ?_⟩
  · rw [mix_toNat, mixProduct_toNat]
  · have hones : c.wyMask = BitVec.allOnes 64 := hmask
    rw [hones, BitVec.xor_allOnes, BitVec.toNat_not]

/-- Settles O17, from the law of NEXT on a constructed instance and the refusal before construction. -/
theorem nextReturnsMixedState : Obligations.NextReturnsMixedState :=
  fun _ a b => ⟨decode_append_controlByte a b 0x03, fun _ hs => exec_next_of_gen_some hs,
    fun hs => exec_of_gen_none hs nofun⟩

/-- Settles O18: READ_STATE leaves the generator it answered, so that a second one answers it again, and CONSTRUCT leaves the seed. -/
theorem readStateReturnsState : Obligations.ReadStateReturnsState := by
  refine fun s a b => ⟨decode_append_controlByte a b 0x06, fun g hs => ⟨exec_readState_of_gen_some hs, fun t ht => ?_⟩,
    fun hs => exec_of_gen_none hs nofun, fun wsel seed t ht => ?_⟩
  · rw [exec_readState_of_gen_some hs] at ht
    cases ht
    rw [List.append_cons _ _ [_]]
    exact exec_readState_of_gen_some hs
  · rw [exec_construct_eq] at ht
    cases ht
    exact exec_readState_of_gen_some (g := ⟨seed, wsel⟩) rfl

/-- Settles O24: the rows of the multiplexer's table, one for each command. -/
theorem outputMuxByCommand : Obligations.OutputMuxByCommand := by
  intro i s t h
  obtain ⟨u, hu, r, hr, hrefused, hok⟩ := exec_answersByMux i s
  obtain rfl : u = t := Host.Outcome.next.inj (hu.symm.trans h)
  refine ⟨r, hr, hrefused, fun hst => ?_⟩
  have hdata : OkData i s r.data := hok hst
  refine ⟨fun _ _ hi => ?_, fun _ hi => ?_, fun hi => ?_, fun hi => ?_, fun _ _ hi => ?_, fun hi => ?_⟩ <;>
    · subst hi
      exact hdata

end

section
/-! PROOFS. The output width adapter (41_output_width_adapter.md R100 to R102): a `W`-bit draw on the 64-bit data port. -/

namespace Sys2Proof.Machine

/-- R100, R102: a draw selects the bits a bound selects (R62), so that its data on the port is the same residue modulo `2^W`. -/
theorem zext64_proj {W : Nat} (h : W ≤ 64) (o : U64) : zext64 (proj W o) = BitVec.ofNat 64 (o.toNat % 2 ^ W) :=
  zext64_boundOf h o

end Sys2Proof.Machine
end

section
/-! PROOFS. The statements about 41_output_width_adapter.md: GENERATE. -/

open Sys2Proof Sys2Proof.Machine

/-- Settles O25: the law of GENERATE on a constructed instance, its data read as a residue since every width is at most 64, and the
refusal before construction. -/
theorem generateReturnsLowBits : Obligations.GenerateReturnsLowBits := by
  refine fun s a b => ⟨decode_append_controlByte a b 0x04, fun g hs => ?_, fun hs => exec_of_gen_none hs nofun⟩
  rw [exec_generate_of_gen_some hs, zext64_proj (widthBits_le g.WSEL)]
  rfl

end

section
/-! PROOFS. The range sampler in exact arithmetic (42_range_sampler.md R111 to R113, R121), and what of the state a
command reads. -/

namespace Sys2Proof.Machine

/-! ### The datapath -/

/-- R111: the `W + 1`-bit subtraction does not borrow, and the increment does not carry. -/
theorem rangeSpan_toNat {W : Nat} {low high : BitVec W} (h : low ≤ high) :
    (rangeSpan low high).toNat = high.toNat - low.toNat + 1 := by
  have hhigh : high.toNat < 2 ^ W := high.isLt
  have hdiff : (high.setWidth (W + 1) - low.setWidth (W + 1)).toNat = high.toNat - low.toNat := by
    have hle : low.setWidth (W + 1) ≤ high.setWidth (W + 1) := by
      rwa [BitVec.le_def, BitVec.toNat_setWidth_of_le (Nat.le_succ W), BitVec.toNat_setWidth_of_le (Nat.le_succ W)]
    rw [BitVec.toNat_sub_of_le hle, BitVec.toNat_setWidth_of_le (Nat.le_succ W),
      BitVec.toNat_setWidth_of_le (Nat.le_succ W)]
  have hone : (1 : BitVec (W + 1)).toNat = 1 := Nat.mod_eq_of_lt (Nat.one_lt_two_pow (Nat.succ_ne_zero W))
  rw [rangeSpan, BitVec.toNat_add_of_lt, hdiff, hone]
  rw [hdiff, hone, pow_succ]
  omega

/-- R112: the remainder is at most `high - low`, so that the addition does not carry out of `W` bits. -/
theorem rangeValue_toNat {W : Nat} {low high : BitVec W} (h : low ≤ high) (r : BitVec W) :
    (rangeValue low high r).toNat = low.toNat + r.toNat % (high.toNat - low.toNat + 1) := by
  have hle : low.toNat ≤ high.toNat := h
  have hrem : r.toNat % (high.toNat - low.toNat + 1) ≤ high.toNat - low.toNat :=
    Nat.le_of_lt_succ (Nat.mod_lt _ (Nat.succ_pos _))
  have hfits : low.toNat + r.toNat % (high.toNat - low.toNat + 1) < 2 ^ W := by
    have hhigh := high.isLt
    omega
  rw [rangeValue, BitVec.toNat_add, BitVec.toNat_setWidth, BitVec.toNat_umod, rangeSpan_toNat h,
    BitVec.toNat_setWidth_of_le (Nat.le_succ W), Nat.add_mod_mod, Nat.mod_eq_of_lt hfits]

theorem zext64_eq_ofNat {W : Nat} (v : BitVec W) : zext64 v = BitVec.ofNat 64 v.toNat := (BitVec.ofNat_toNat 64 v).symm

/-! ### The bounds -/

/-- R113: inverted bounds are inverted on their low `W` bits. -/
theorem boundOf_lt_boundOf_iff (W : Nat) (a b : U64) :
    boundOf W a < boundOf W b ↔ a.toNat % 2 ^ W < b.toNat % 2 ^ W := by
  rw [BitVec.lt_def, boundOf_toNat, boundOf_toNat]

/-- R121: operands that agree modulo `2^W` are one bound. -/
theorem boundOf_eq_boundOf_iff (W : Nat) (a b : U64) : boundOf W a = boundOf W b ↔ a.toNat % 2 ^ W = b.toNat % 2 ^ W := by
  rw [← BitVec.toNat_inj, boundOf_toNat, boundOf_toNat]

/-- R121: at width 64 no bit of an operand is above the width. -/
theorem boundOf_sixtyFour (x : U64) : boundOf 64 x = x := BitVec.extractLsb'_eq_self

/-- R121: GENERATE_RANGE reads its operands only as bounds. -/
theorem exec_generateRange_congr {s : State} {g : Generator} {a b a' b' : U64} (hs : s.gen = some g)
    (ha : boundOf (widthBits g.WSEL) a = boundOf (widthBits g.WSEL) a')
    (hb : boundOf (widthBits g.WSEL) b = boundOf (widthBits g.WSEL) b') :
    exec (.generateRange a b) s = exec (.generateRange a' b') s := by
  by_cases h : boundOf (widthBits g.WSEL) a ≤ boundOf (widthBits g.WSEL) b
  · rw [exec_generateRange_of_le hs h, exec_generateRange_of_le hs (ha ▸ hb ▸ h), ha, hb]
  · have hlt := BitVec.not_le.mp h
    rw [exec_generateRange_of_lt hs hlt, exec_generateRange_of_lt hs (ha ▸ hb ▸ hlt)]

/-! ### What a command reads -/

/-- R20: what a command leaves and answers depends on the configuration and the generator alone, not on the inputs to come or the
responses before it. -/
theorem exec_reads_cfg_gen (i : Instr) (c : Config) (gen : Option Generator) (ps qs : List HostInput)
    (rs us : List Response) :
    ∃ gen' r, exec i ⟨c, gen, ps, rs⟩ = .next ⟨c, gen', ps, rs ++ [r]⟩ ∧
      exec i ⟨c, gen, qs, us⟩ = .next ⟨c, gen', qs, us ++ [r]⟩ := by
  cases gen with
  | none =>
    cases i with
    | construct wsel x => exact ⟨_, _, exec_construct_eq wsel x _, exec_construct_eq wsel x _⟩
    | _ => exact ⟨_, _, exec_of_gen_none rfl nofun, exec_of_gen_none rfl nofun⟩
  | some g =>
    cases i with
    | construct wsel x => exact ⟨_, _, exec_construct_eq wsel x _, exec_construct_eq wsel x _⟩
    | reseed x => exact ⟨_, _, exec_reseed_of_gen_some rfl x, exec_reseed_of_gen_some rfl x⟩
    | next => exact ⟨_, _, exec_next_of_gen_some rfl, exec_next_of_gen_some rfl⟩
    | generate => exact ⟨_, _, exec_generate_of_gen_some rfl, exec_generate_of_gen_some rfl⟩
    | readState => exact ⟨_, _, exec_readState_of_gen_some rfl, exec_readState_of_gen_some rfl⟩
    | generateRange a b =>
      by_cases hle : boundOf (widthBits g.WSEL) a ≤ boundOf (widthBits g.WSEL) b
      · exact ⟨_, _, exec_generateRange_of_le rfl hle, exec_generateRange_of_le rfl hle⟩
      · have hlt := BitVec.not_le.mp hle
        exact ⟨_, _, exec_generateRange_of_lt rfl hlt, exec_generateRange_of_lt rfl hlt⟩

end Sys2Proof.Machine
end

section
/-! PROOFS. The statements about 42_range_sampler.md: GENERATE_RANGE. -/

open Sys2Proof Sys2Proof.Machine

/-- Settles O29: the exact span is at most `high + 1`, and reaches `2^W` only with the least `low` and the greatest `high`. -/
theorem spanIsExact : Obligations.SpanIsExact := by
  intro W low high h
  have hle : low.toNat ≤ high.toNat := h
  have hhigh : high.toNat < 2 ^ W := high.isLt
  rw [rangeSpan_toNat h]
  refine ⟨rfl, ?_, ?_, ?_⟩ <;> omega

/-- Settles O30: the laws of GENERATE_RANGE for the three cases of its status, the last with its data in exact arithmetic. -/
theorem generateRangeReducesDraw : Obligations.GenerateRangeReducesDraw := by
  refine fun s a b => ⟨decode_append_controlByte a b 0x05, fun hs => exec_of_gen_none hs nofun, fun g hs h => ?_,
    fun g low high r hs hlow hhigh hle hr => ?_⟩
  · exact exec_generateRange_of_lt hs ((boundOf_lt_boundOf_iff _ b a).mpr h)
  · subst hlow hhigh hr
    have hbounds : boundOf (widthBits g.WSEL) a ≤ boundOf (widthBits g.WSEL) b := (boundOf_le_boundOf_iff _ a b).mpr hle
    rw [exec_generateRange_of_le hs hbounds, zext64_eq_ofNat, rangeValue_toNat hbounds, boundOf_toNat, boundOf_toNat,
      proj_toNat]
    rfl

/-- Settles O31: a refusal adds a response and nothing else, and no command reads the responses before it. -/
theorem invertedBoundsRefused : Obligations.InvertedBoundsRefused := by
  refine fun s g a b hs h =>
    ⟨_, exec_generateRange_of_lt hs ((boundOf_lt_boundOf_iff _ b a).mpr h), rfl, fun i => ?_⟩
  obtain ⟨gen, r, hexec, hafter⟩ :=
    exec_reads_cfg_gen i s.cfg s.gen s.pending s.pending s.responses (s.responses ++ [⟨.invalidRange, 0⟩])
  refine ⟨gen, r, hexec, ?_⟩
  rw [hafter, List.append_assoc]
  rfl

/-- Settles O34: GENERATE_RANGE with equal operands is what GENERATE_ONE expands to. -/
theorem singleValueRangeStillSteps : Obligations.SingleValueRangeStillSteps := by
  obtain ⟨-, -, hone⟩ := pseudoCommandsExpand
  exact hone

/-- Settles O35: operands count only as bounds, which are residues modulo `2^W`, and at width 64 the operands themselves. -/
theorem boundBitsAboveWidthIgnored : Obligations.BoundBitsAboveWidthIgnored := by
  refine ⟨fun s g a b a' b' hs ha hb => ?_, fun s g hs hw => ?_, fun s g a b hs hw h => ?_⟩
  · exact exec_generateRange_congr hs ((boundOf_eq_boundOf_iff _ a a').mpr ha) ((boundOf_eq_boundOf_iff _ b b').mpr hb)
  · exact ⟨exec_generateRange_congr hs (by rw [hw]; rfl) (by rw [hw]; rfl),
      exec_generateRange_congr hs (by rw [hw]; rfl) rfl⟩
  · have hwidth : widthBits g.WSEL = 64 := by rw [hw]; rfl
    refine exec_generateRange_of_lt hs ?_
    rw [hwidth, boundOf_sixtyFour, boundOf_sixtyFour]
    exact h

end

section
/-! PROOFS. When a command is refused (60_exceptions.md R132 to R134): the conditions of the two statuses a legal command can be
refused with, and what it leaves in each case and in neither. -/

namespace Sys2Proof.Machine

/-- R132's condition: there is no generator, and the command is not the one that makes it. -/
def NotConstructedFor (i : Instr) (s : State) : Prop :=
  s.gen = none ∧ ∀ wsel x, i ≠ .construct wsel x

/-- R133's condition: there is a generator, and the bounds are inverted on its `W` bits. -/
def InvalidRangeFor (i : Instr) (s : State) : Prop :=
  ∃ g a b, s.gen = some g ∧ i = .generateRange a b ∧ b.toNat % 2 ^ widthBits g.WSEL < a.toNat % 2 ^ widthBits g.WSEL

/-- A command that ends OK: it was under neither condition, and it leaves a generator and one OK response. -/
def EndsOk (i : Instr) (s : State) : Prop :=
  ¬NotConstructedFor i s ∧ ¬InvalidRangeFor i s ∧
    ∃ g d, exec i s = .next { s with gen := some g, responses := s.responses ++ [⟨.ok, d⟩] }

/-- R76: CONSTRUCT is under neither condition in any state. -/
theorem endsOk_construct (wsel : BitVec 2) (seed : U64) (s : State) : EndsOk (.construct wsel seed) s :=
  ⟨fun ⟨_, hi⟩ => hi wsel seed rfl, fun ⟨_, _, _, _, hi, _⟩ => Instr.noConfusion hi, _, _, exec_construct_eq wsel seed s⟩

theorem not_notConstructedFor {i : Instr} {s : State} {g : Generator} (hs : s.gen = some g) : ¬NotConstructedFor i s :=
  fun ⟨hnone, _⟩ => nomatch hs.symm.trans hnone

/-- On a constructed instance a command other than GENERATE_RANGE is under neither condition. -/
theorem endsOk_of_ne_generateRange {i : Instr} {s : State} {g h : Generator} {d : U64} (hs : s.gen = some g)
    (hi : ∀ a b, i ≠ .generateRange a b)
    (hexec : exec i s = .next { s with gen := some h, responses := s.responses ++ [⟨.ok, d⟩] }) : EndsOk i s :=
  ⟨not_notConstructedFor hs, fun ⟨_, a, b, _, hab, _⟩ => hi a b hab, h, d, hexec⟩

/-- R84: READ_STATE leaves the generator it found. -/
theorem exec_readState_keeps_gen {s : State} {g : Generator} (hs : s.gen = some g) :
    exec .readState s = .next { s with gen := some g, responses := s.responses ++ [⟨.ok, g.S⟩] } := by
  rw [exec_readState_of_gen_some hs, ← hs]

/-- R114: GENERATE_RANGE is refused exactly when its bounds are inverted on the `W` bits. -/
theorem exec_generateRange_cases {s : State} {g : Generator} (hs : s.gen = some g) (a b : U64) :
    (InvalidRangeFor (.generateRange a b) s ∧ exec (.generateRange a b) s = .next (raise .invalidRange s)) ∨
    EndsOk (.generateRange a b) s := by
  by_cases hlt : b.toNat % 2 ^ widthBits g.WSEL < a.toNat % 2 ^ widthBits g.WSEL
  · refine .inl ⟨⟨g, a, b, hs, rfl, hlt⟩, ?_⟩
    rw [exec_generateRange_of_lt hs ((boundOf_lt_boundOf_iff _ b a).mpr hlt), raise_eq]
  · refine .inr ⟨not_notConstructedFor hs, ?_, _, _,
      exec_generateRange_of_le hs ((boundOf_le_boundOf_iff _ a b).mpr (Nat.not_lt.mp hlt))⟩
    rintro ⟨g', _, _, hs', ⟨⟩, hlt'⟩
    obtain rfl : g = g' := Option.some.inj (hs.symm.trans hs')
    exact hlt hlt'

/-- R132 to R134: a command raises NOT_CONSTRUCTED under its condition, INVALID_RANGE under its own, and otherwise ends OK. -/
theorem exec_status_cases (i : Instr) (s : State) :
    (NotConstructedFor i s ∧ exec i s = .next (raise .notConstructed s)) ∨
    (InvalidRangeFor i s ∧ exec i s = .next (raise .invalidRange s)) ∨
    EndsOk i s := by
  by_cases hn : NotConstructedFor i s
  · obtain ⟨hs, hi⟩ := hn
    exact .inl ⟨⟨hs, hi⟩, by rw [exec_of_gen_none hs hi, raise_eq]⟩
  · right
    cases hs : s.gen with
    | none =>
      obtain ⟨wsel, x, rfl⟩ : ∃ wsel x, i = .construct wsel x := by
        by_contra hne
        push Not at hne
        exact hn ⟨hs, hne⟩
      exact .inr (endsOk_construct wsel x s)
    | some g =>
      cases i with
      | construct wsel x => exact .inr (endsOk_construct wsel x s)
      | reseed x => exact .inr (endsOk_of_ne_generateRange hs nofun (exec_reseed_of_gen_some hs x))
      | next => exact .inr (endsOk_of_ne_generateRange hs nofun (exec_next_of_gen_some hs))
      | generate => exact .inr (endsOk_of_ne_generateRange hs nofun (exec_generate_of_gen_some hs))
      | readState => exact .inr (endsOk_of_ne_generateRange hs nofun (exec_readState_keeps_gen hs))
      | generateRange a b => exact exec_generateRange_cases hs a b

/-! ### The response a step on a word appends -/

theorem raise_responses (st : Status) (s : State) : (raise st s).responses = s.responses ++ [⟨st, 0⟩] := by
  rw [raise_eq]

/-- The response a state has over an earlier one is that of the outcome it came from. -/
theorem response_eq_of_outcome {o : Host.Outcome State Fault Refusal} {s t u : State} {q r : Response}
    (hu : o = .next u) (hq : u.responses = s.responses ++ [q]) (ht : o = .next t)
    (hr : t.responses = s.responses ++ [r]) : r = q := by
  obtain rfl : u = t := Host.Outcome.next.inj (hu.symm.trans ht)
  exact List.singleton_inj.mp (List.append_cancel_left (hr.symm.trans hq))

theorem step_present_of_decode_ok {w : CommandBits} {i : Instr} (h : decode w = .ok i) (s : State) :
    step (present (.command w) s) = exec i s :=
  step_of_decode_ok rfl h

/-- R131, R136: a word that decodes to no command raises ILLEGAL_COMMAND, whether or not there is a generator. -/
theorem step_present_raises_of_decode_error {w : CommandBits} {e : DecodeReject} (h : decode w = .error e) (s : State) :
    step (present (.command w) s) = .next (raise .illegalCommand s) := by
  rw [step_present_of_decode_error h, raise_eq]

/-- R134: a step on a command word raises a status, or runs a command that ends OK. -/
theorem step_present_raises_or_endsOk (w : CommandBits) (s : State) :
    (∃ st, step (present (.command w) s) = .next (raise st s)) ∨ ∃ i, decode w = .ok i ∧ EndsOk i s := by
  cases hd : decode w with
  | error e => exact .inl ⟨_, step_present_raises_of_decode_error hd s⟩
  | ok i =>
    rw [step_present_of_decode_ok hd]
    obtain ⟨-, hexec⟩ | ⟨-, hexec⟩ | hok := exec_status_cases i s
    · exact .inl ⟨_, hexec⟩
    · exact .inl ⟨_, hexec⟩
    · exact .inr ⟨i, rfl, hok⟩

end Sys2Proof.Machine
end

section
/-! PROOFS. The statements about 60_exceptions.md: which status a word gets, and what a refusal leaves. -/

open Sys2Proof Sys2Proof.Machine

/-- Settles O37: the refusal before construction is a law of `exec`; on a constructed instance its condition fails, a refused range
keeps the generator, and a command that ends OK leaves one. -/
theorem unconstructedIsRefused : Obligations.UnconstructedIsRefused := by
  refine ⟨fun i s => exec_of_gen_none, fun i s t g hs ht => ?_⟩
  obtain ⟨hcond, -⟩ | ⟨-, hexec⟩ | ⟨-, -, h, d, hexec⟩ := exec_status_cases i s
  · exact absurd hcond (not_notConstructedFor hs)
  · rw [hexec, raise_eq] at ht
    cases ht
    exact ⟨⟨_, rfl, nofun⟩, g, hs⟩
  · rw [hexec] at ht
    cases ht
    exact ⟨⟨_, rfl, nofun⟩, h, rfl⟩

/-- Settles O38: a step on a word raises a status, and that is all it does, or the word's command ends OK. -/
theorem refusedCommandHasNoEffect : Obligations.RefusedCommandHasNoEffect := by
  intro s t w r hstep hr hst
  obtain ⟨st, hraise⟩ | ⟨i, hd, -, -, g, d, hexec⟩ := step_present_raises_or_endsOk w s
  · obtain rfl := response_eq_of_outcome hraise (raise_responses st s) hstep hr
    rw [hraise, raise_eq] at hstep
    exact (Host.Outcome.next.inj hstep).symm
  · rw [step_present_of_decode_ok hd] at hstep
    obtain rfl := response_eq_of_outcome hexec rfl hstep hr
    exact absurd rfl hst

/-- Settles O39: a word that does not decode meets the first condition alone; a command meets the second, the third or neither, and
the second and third differ on whether there is a generator. -/
theorem statusPriority : Obligations.StatusPriority := by
  intro s t w r hstep hr
  cases hd : decode w with
  | error e =>
    obtain rfl :=
      response_eq_of_outcome (step_present_raises_of_decode_error hd s) (raise_responses _ s) hstep hr
    exact ⟨iff_of_true rfl ⟨e, rfl⟩, by simp, by simp⟩
  | ok i =>
    rw [step_present_of_decode_ok hd] at hstep
    obtain ⟨⟨hs, hi⟩, hexec⟩ | ⟨⟨g, a, b, hs, hi, hlt⟩, hexec⟩ | ⟨hn, hv, g, d, hexec⟩ := exec_status_cases i s
    · obtain rfl := response_eq_of_outcome hexec (raise_responses _ s) hstep hr
      exact ⟨by simp, iff_of_true rfl ⟨hs, i, rfl, hi⟩, by simp [hs]⟩
    · obtain rfl := response_eq_of_outcome hexec (raise_responses _ s) hstep hr
      exact ⟨by simp, by simp [hs], iff_of_true rfl ⟨g, a, b, hs, congrArg _ hi, hlt⟩⟩
    · obtain rfl := response_eq_of_outcome hexec rfl hstep hr
      refine ⟨by simp, iff_of_false nofun ?_, iff_of_false nofun ?_⟩
      · rintro ⟨hs, _, ⟨⟩, hi⟩
        exact hn ⟨hs, hi⟩
      · rintro ⟨g, a, b, hs, ⟨⟩, hlt⟩
        exact hv ⟨g, a, b, hs, rfl, hlt⟩

end

section
/-! PROOFS. Runs that never stop (70_reset_and_hazards.md R167). -/

namespace Sys2Proof.Machine

/-- R167: a run of any length ends in a state, since each of its steps does. -/
theorem safeFrom_all (s : State) : SafeFrom s := by
  intro n
  induction n generalizing s with
  | zero => exact ⟨s, runFor_zero s⟩
  | succ n ih =>
    obtain ⟨u, hstep, -⟩ := step_completes s
    obtain ⟨t, hrun⟩ := ih u
    exact ⟨t, (runFor_succ n hstep).trans hrun⟩

end Sys2Proof.Machine
end

section
/-! PROOFS. The statements about 70_reset_and_hazards.md: what a reset ends, and that every step completes. -/

open Sys2Proof Sys2Proof.Machine

/-- Settles O51: every command answers once, so every step ends in a next state, and runs follow by induction on their length. -/
theorem everyStepCompletes : Obligations.EveryStepCompletes := by
  refine ⟨fun i s => ?_, fun s => ?_, safeFrom_all⟩
  · obtain ⟨t, hexec, -⟩ := exec_answersOnce i s
    exact ⟨t, hexec⟩
  · obtain ⟨t, hstep, -⟩ := step_completes s
    exact ⟨t, hstep⟩

/-- Settles O49: what a step on a reset leaves has no generator, so the law of commands before construction holds there. -/
theorem resetEndsGenerator : Obligations.ResetEndsGenerator :=
  fun _ => ⟨_, step_of_reset rfl, rfl, fun _ => exec_of_gen_none rfl⟩

end

section
/-! PROOFS. What a run does with what the host presents (20_memory.md R46, R47, 30_encoding.md R61): how many responses it adds, and
that a refusal among them carries no data. -/

namespace Sys2Proof.Machine

/-- R61: a response that is not OK carries no data. -/
def CarriesNoRefusedData (rs : List Response) : Prop := ∀ r ∈ rs, r.status ≠ .ok → r.data = 0

theorem carriesNoRefusedData_append {rs qs : List Response} :
    CarriesNoRefusedData (rs ++ qs) ↔ CarriesNoRefusedData rs ∧ CarriesNoRefusedData qs := List.forall_mem_append

/-- What the block has done from `s` to `t` when it has taken the inputs `xs`, in order, and `ps` are still to come: it has added `rs`
to the responses, one for each command among `xs`, and kept the configuration. -/
structure Takes (s t : State) (xs ps : List HostInput) (rs : List Response) : Prop where
  cfg : t.cfg = s.cfg
  pending : t.pending = ps
  responses : t.responses = s.responses ++ rs
  length : rs.length = commandCount xs
  refusedData : CarriesNoRefusedData rs

theorem commandCount_append (xs ys : List HostInput) : commandCount (xs ++ ys) = commandCount xs + commandCount ys :=
  List.countP_append

theorem commandCount_cons (x : HostInput) (xs : List HostInput) :
    commandCount (x :: xs) = commandCount [x] + commandCount xs := commandCount_append [x] xs

theorem commandCount_asCommands (ws : List CommandBits) : commandCount (asCommands ws) = ws.length := by
  rw [commandCount, asCommands, List.countP_map]
  exact List.countP_eq_length.mpr fun _ _ => rfl

theorem takes_nil {s : State} {ps : List HostInput} (h : s.pending = ps) : Takes s s [] ps [] :=
  ⟨rfl, h, (List.append_nil _).symm, rfl, nofun⟩

theorem Takes.trans {s t u : State} {xs ys ps qs : List HostInput} {rs os : List Response} (hst : Takes s t xs ps rs)
    (htu : Takes t u ys qs os) : Takes s u (xs ++ ys) qs (rs ++ os) where
  cfg := htu.cfg.trans hst.cfg
  pending := htu.pending
  responses := by rw [htu.responses, hst.responses, List.append_assoc]
  length := by rw [List.length_append, hst.length, htu.length, commandCount_append]
  refusedData := carriesNoRefusedData_append.mpr ⟨hst.refusedData, htu.refusedData⟩

/-- R47, R61: every command adds one response, without data if it is refused, and keeps the configuration and the inputs to come. -/
theorem exec_adds_response (i : Instr) (s : State) :
    ∃ t r, exec i s = .next t ∧ t.cfg = s.cfg ∧ t.pending = s.pending ∧ t.responses = s.responses ++ [r] ∧
      (r.status ≠ .ok → r.data = 0) := by
  obtain ⟨t, ht, gen, r, rfl⟩ := exec_answersOnce i s
  obtain ⟨u, hu, q, hq, hrefused, -⟩ := exec_answersByMux i s
  obtain rfl := response_eq_of_outcome hu hq ht rfl
  exact ⟨_, r, ht, rfl, rfl, rfl, hrefused⟩

/-- R46: a step takes the input presented next. -/
theorem step_takes {s : State} {x : HostInput} {ps : List HostInput} (h : s.pending = x :: ps) :
    ∃ t rs, step s = .next t ∧ Takes s t [x] ps rs := by
  cases x with
  | reset => exact ⟨_, [], step_of_reset h, rfl, rfl, (List.append_nil _).symm, rfl, nofun⟩
  | command w =>
    cases hd : decode w with
    | error e =>
      exact ⟨_, _, step_of_decode_error h hd, rfl, rfl, rfl, rfl, List.forall_mem_singleton.mpr fun _ => rfl⟩
    | ok i =>
      obtain ⟨t, r, ht, hcfg, hpending, hresponses, hrefused⟩ := exec_adds_response i { s with pending := ps }
      exact ⟨t, [r], (step_of_decode_ok h hd).trans ht, hcfg, hpending, hresponses, rfl,
        List.forall_mem_singleton.mpr hrefused⟩

/-- R170: a run takes the inputs presented, in order, one a step. -/
theorem runFor_takes (xs : List HostInput) {ps : List HostInput} {s : State} (h : s.pending = xs ++ ps) :
    ∃ t rs, runFor xs.length s = .next t ∧ Takes s t xs ps rs := by
  induction xs generalizing s with
  | nil => exact ⟨s, [], runFor_zero s, takes_nil h⟩
  | cons x xs ih =>
    obtain ⟨u, os, hstep, hfirst⟩ := step_takes h
    obtain ⟨t, rs, hrun, hrest⟩ := ih hfirst.pending
    exact ⟨t, os ++ rs, (runFor_succ xs.length hstep).trans hrun, hfirst.trans hrest⟩

theorem runFor_add {m : Nat} {s u : State} (h : runFor m s = .next u) (n : Nat) : runFor (m + n) s = runFor n u := by
  induction m generalizing s with
  | zero =>
    obtain rfl : s = u := Host.Outcome.next.inj h
    rw [Nat.zero_add]
  | succ m ih =>
    obtain ⟨v, hstep, -⟩ := step_completes s
    rw [runFor_succ m hstep] at h
    rw [Nat.succ_add, runFor_succ (m + n) hstep, ih h]

/-- R47: after the first `xs` of the inputs a run has added the first responses of the whole run, one for each command among `xs`. -/
theorem runFor_takes_first {s t : State} {xs ys : List HostInput} {rs : List Response} (h : s.pending = xs ++ ys)
    (hrun : runFor (xs ++ ys).length s = .next t) (ht : t.responses = s.responses ++ rs) :
    ∃ u, runFor xs.length s = .next u ∧ Takes s u xs ys (rs.take (commandCount xs)) := by
  obtain ⟨u, os, hu, hfirst⟩ := runFor_takes xs h
  obtain ⟨v, qs, hv, hrest⟩ := runFor_takes ys (hfirst.pending.trans (List.append_nil ys).symm)
  rw [List.length_append, runFor_add hu, hv] at hrun
  obtain rfl : v = t := Host.Outcome.next.inj hrun
  have hrs : rs = os ++ qs := List.append_cancel_left (ht.symm.trans (hfirst.trans hrest).responses)
  rw [hrs, List.take_left' hfirst.length]
  exact ⟨u, hu, hfirst⟩

/-- R163: a merge is as long as the lists it is made from. -/
theorem length_of_merge {α : Type} {ls : List (List α)} {zs : List α} (h : Merge ls zs) :
    zs.length = (ls.map List.length).sum := by
  induction h with
  | done ls h =>
    have hzero : ∀ n ∈ ls.map List.length, n = 0 := by
      rw [List.forall_mem_map]
      exact fun l hl => congrArg List.length (h l hl)
    exact (List.sum_eq_zero hzero).symm
  | pick before x l after zs _ ih =>
    simp only [List.length_cons, List.map_append, List.map_cons, List.sum_append, List.sum_cons] at ih ⊢
    omega

end Sys2Proof.Machine
end

section
/-! PROOFS. What a run reads (10_state.md R20, 20_memory.md R46): the configuration, the generator and the inputs, never the responses
before it. -/

namespace Sys2Proof.Machine

/-- Two states that differ at most in the responses produced so far. -/
structure EqUpToResponses (s u : State) : Prop where
  cfg : s.cfg = u.cfg
  gen : s.gen = u.gen
  pending : s.pending = u.pending

/-- The two outcomes are next states that again differ at most in their responses, and both have added the same ones. -/
def AnswerAlike (s u : State) (o p : Host.Outcome State Fault Refusal) : Prop :=
  ∃ t v rs, o = .next t ∧ p = .next v ∧ t.responses = s.responses ++ rs ∧ v.responses = u.responses ++ rs ∧
    EqUpToResponses t v

theorem step_answerAlike {s u : State} (h : EqUpToResponses s u) : AnswerAlike s u (step s) (step u) := by
  obtain ⟨c, gen, ps, ss⟩ := s
  obtain ⟨_, _, _, us⟩ := u
  obtain ⟨rfl, rfl, rfl⟩ := h
  cases ps with
  | nil =>
    exact ⟨_, _, [], step_of_pending_nil rfl, step_of_pending_nil rfl, (List.append_nil _).symm, (List.append_nil _).symm,
      rfl, rfl, rfl⟩
  | cons x ps =>
    cases x with
    | reset =>
      exact ⟨_, _, [], step_of_reset rfl, step_of_reset rfl, (List.append_nil _).symm, (List.append_nil _).symm,
        rfl, rfl, rfl⟩
    | command w =>
      cases hd : decode w with
      | error e => exact ⟨_, _, _, step_of_decode_error rfl hd, step_of_decode_error rfl hd, rfl, rfl, rfl, rfl, rfl⟩
      | ok i =>
        obtain ⟨gen', r, hs, hu⟩ := exec_reads_cfg_gen i c gen ps ps ss us
        exact ⟨_, _, [r], (step_of_decode_ok rfl hd).trans hs, (step_of_decode_ok rfl hd).trans hu, rfl, rfl, rfl, rfl, rfl⟩

/-- R160: what a run answers and leaves is determined by the configuration, the generator and the inputs. -/
theorem runFor_answerAlike {s u : State} (n : Nat) (h : EqUpToResponses s u) :
    AnswerAlike s u (runFor n s) (runFor n u) := by
  induction n generalizing s u with
  | zero => exact ⟨s, u, [], runFor_zero s, runFor_zero u, (List.append_nil _).symm, (List.append_nil _).symm, h⟩
  | succ n ih =>
    obtain ⟨t, v, os, hs, hu, ht, hv, hstep⟩ := step_answerAlike h
    obtain ⟨t', v', rs, ht', hv', hrt, hrv, hrun⟩ := ih hstep
    refine ⟨t', v', os ++ rs, (runFor_succ n hs).trans ht', (runFor_succ n hu).trans hv', ?_, ?_, hrun⟩
    · rw [hrt, ht, List.append_assoc]
    · rw [hrv, hv, List.append_assoc]

/-- R76, R77: CONSTRUCT with the width and seed of `g`, or RESEED with its seed at its width, leaves `g`. -/
theorem gen_of_restored {u b : State} {g : Generator}
    (h : exec (.construct g.WSEL g.S) u = .next b ∨
      ∃ h, u.gen = some h ∧ h.WSEL = g.WSEL ∧ exec (.reseed g.S) u = .next b) :
    b.cfg = u.cfg ∧ b.gen = some g := by
  obtain hb | ⟨h, hu, hw, hb⟩ := h
  · rw [exec_construct_eq] at hb
    cases hb
    exact ⟨rfl, rfl⟩
  · rw [exec_reseed_of_gen_some hu, hw] at hb
    cases hb
    exact ⟨rfl, rfl⟩

end Sys2Proof.Machine
end

section
/-! PROOFS. The statements about what runs answer: the invariant, one response a command, restoring, reproducing and sharing. -/

open Sys2Proof Sys2Proof.Machine

/-- Settles O52: the run takes the inputs one a step, and for each `k` it is the run on the first `k` inputs followed by the run on the
rest. -/
theorem runAnswersEveryCommand : Obligations.RunAnswersEveryCommand := by
  intro s
  obtain ⟨t, rs, hrun, ht⟩ := runFor_takes s.pending (List.append_nil _).symm
  refine ⟨t, rs, hrun, ht.pending, step_of_pending_nil ht.pending, ht.responses, ht.length, fun k hk => ?_⟩
  have hsplit : s.pending = s.pending.take k ++ s.pending.drop k := (List.take_append_drop k _).symm
  obtain ⟨u, hu, hfirst⟩ := runFor_takes_first hsplit (hsplit ▸ hrun) ht.responses
  rw [List.length_take_of_le hk] at hu
  exact ⟨u, hu, hfirst.pending, hfirst.responses⟩

/-- Settles O45: an idle step changes nothing, and any other moves one input from those still owed a response to those answered. -/
theorem stepKeepsInvariant : Obligations.StepKeepsInvariant := by
  intro c n s t ⟨hcfg, hodd, howed, hdata⟩ hstep
  cases hp : s.pending with
  | nil =>
    rw [step_of_pending_nil hp] at hstep
    cases hstep
    exact ⟨hcfg, hodd, howed, hdata⟩
  | cons x ps =>
    obtain ⟨u, rs, hu, htakes⟩ := step_takes hp
    obtain rfl : u = t := Host.Outcome.next.inj (hu.symm.trans hstep)
    refine ⟨htakes.cfg.trans hcfg, hodd, ?_, ?_⟩
    · rw [hp, commandCount_cons] at howed
      rw [htakes.responses, htakes.pending, List.length_append, htakes.length, Nat.add_assoc, howed]
    · rw [htakes.responses]
      exact carriesNoRefusedData_append.mpr ⟨hdata, htakes.refusedData⟩

/-- Settles O23: READ_STATE leaves the original as it was, both ways of restoring leave the generator it answered, and a run reads no
more than configuration, generator and inputs. -/
theorem restoreContinuesSequence : Obligations.RestoreContinuesSequence := by
  intro s a u b g x xs hs hread hanswer hcfg hrestore n
  rw [exec_readState_of_gen_some hs] at hread
  cases hread
  obtain ⟨⟩ := List.append_cancel_left hanswer
  obtain ⟨hbcfg, hbgen⟩ := gen_of_restored hrestore
  have hsame : EqUpToResponses { s with pending := xs, responses := s.responses ++ [⟨.ok, g.S⟩] } { b with pending := xs } :=
    ⟨(hbcfg.trans hcfg).symm, hs.trans hbgen.symm, rfl⟩
  obtain ⟨a', b', rs, ha', hb', hra, hrb, hend⟩ := runFor_answerAlike n hsame
  exact ⟨a', b', rs, ha', hb', hra, hrb, hend.gen⟩

/-- Settles O53: after the reset both states agree in all that a run reads. -/
theorem runsAreReproducible : Obligations.RunsAreReproducible := by
  intro s u xs n hcfg hs hu
  have hsame : EqUpToResponses { s with gen := none, pending := xs } { u with gen := none, pending := xs } := ⟨hcfg, rfl, rfl⟩
  obtain ⟨t, v, rs, ht, hv, hrt, hrv, hend⟩ := runFor_answerAlike n hsame
  exact ⟨t, v, rs, (runFor_succ n (step_of_reset hs)).trans ht, (runFor_succ n (step_of_reset hu)).trans hv, hrt, hrv,
    hend.gen, hend.pending⟩

/-- Settles O55: the merged sequence is a sequence of commands, as long as the requesters' lists together. -/
theorem sharedInstanceAnswersAll : Obligations.SharedInstanceAnswersAll := by
  intro s ls zs hmerge hs
  obtain ⟨t, rs, hrun, ht⟩ := runFor_takes (asCommands zs) (hs.trans (List.append_nil _).symm)
  rw [asCommands, List.length_map] at hrun
  refine ⟨t, rs, hrun, ht.pending, ht.responses, ?_, ht.refusedData⟩
  rw [ht.length, commandCount_asCommands, length_of_merge hmerge]

/-- Settles O48: the three cases of what the host presents next; the two commands named answer by their own laws. -/
theorem oneResponsePerCommand : Obligations.OneResponsePerCommand := by
  refine fun s => ⟨fun w rest hp => ?_, fun rest hp => ⟨_, step_of_reset hp, rfl, rfl⟩, step_of_pending_nil⟩
  obtain ⟨t, ht, gen, r, rfl⟩ := step_command_answersOnce hp
  refine ⟨_, r, ht, rfl, rfl, fun wsel x hd => ?_, fun x g hd hs => ?_⟩
  · exact response_eq_of_outcome ((step_of_decode_ok hp hd).trans (exec_construct_eq wsel x _)) rfl ht rfl
  · have hs' : ({ s with pending := rest } : State).gen = some g := hs
    exact response_eq_of_outcome ((step_of_decode_ok hp hd).trans (exec_reseed_of_gen_some hs' x)) rfl ht rfl

/-- Settles O46: the reset state has no response and nothing presented, and profile DOC's increment is odd. -/
theorem invariantAtReset : Obligations.InvariantAtReset := ⟨rfl, rfl, rfl, nofun⟩

/-- Settles O47: this is the law of a step on a word that decodes. -/
theorem stepRunsDecodedCommand : Obligations.StepRunsDecodedCommand := fun _ _ _ _ => step_of_decode_ok

end

section
/-! PROOFS. The state sequence (40_wyrand_engine.md R86 to R88): `S` after a number of engine steps in closed form, the commands
that take them, and the period under an odd increment. -/

namespace Sys2Proof.Machine

/-! ### The closed form -/

/-- R86: the state `k` engine steps after `x`. -/
def stateAfter (c : Config) (x : U64) (k : Nat) : U64 := x + BitVec.ofNat 64 k * c.wyInc

@[simp] theorem stateAfter_zero (c : Config) (x : U64) : stateAfter c x 0 = x := by
  rw [stateAfter, BitVec.zero_mul, BitVec.add_zero]

@[simp] theorem stateAfter_one (c : Config) (x : U64) : stateAfter c x 1 = x + c.wyInc := by
  rw [stateAfter, BitVec.one_mul]

theorem stateAfter_add (c : Config) (x : U64) (m n : Nat) :
    stateAfter c x (m + n) = stateAfter c (stateAfter c x m) n := by
  simp only [stateAfter, BitVec.ofNat_add]
  ring

/-- R6, R87: an odd increment shares no factor with `2^64`. -/
theorem coprime_wyInc {c : Config} (h : c.wf = true) : Nat.Coprime c.wyInc.toNat (2 ^ 64) := by
  rw [Config.wf, BitVec.getLsbD, Nat.testBit_zero, decide_eq_true_eq, ← Nat.odd_iff] at h
  exact (Nat.coprime_two_right.mpr h).pow_right 64

/-- R87: the state returns to where it was after a multiple of `2^64` steps and no sooner. -/
theorem stateAfter_eq_self_iff {c : Config} (h : c.wf = true) (x : U64) (k : Nat) :
    stateAfter c x k = x ↔ 2 ^ 64 ∣ k := by
  rw [stateAfter, add_eq_left, ← BitVec.toNat_inj, BitVec.toNat_mul, BitVec.toNat_ofNat, Nat.mod_mul_mod]
  exact Nat.dvd_iff_mod_eq_zero.symm.trans (coprime_wyInc h).symm.dvd_mul_right

/-- R87: every value is some number of steps below `2^64` away, since the increment is invertible modulo `2^64`. -/
theorem exists_stateAfter_eq {c : Config} (h : c.wf = true) (x y : U64) : ∃ k < 2 ^ 64, stateAfter c x k = y := by
  obtain ⟨k, hk, hmul⟩ := Nat.exists_mul_mod_eq_of_coprime (y - x).toNat (coprime_wyInc h) (by decide)
  have hsteps : BitVec.ofNat 64 k * c.wyInc = y - x := by
    apply BitVec.eq_of_toNat_eq
    rw [BitVec.toNat_mul, BitVec.toNat_ofNat, Nat.mod_mul_mod, Nat.mul_comm, hmul, Nat.mod_eq_of_lt (y - x).isLt]
  exact ⟨k, hk, by rw [stateAfter, hsteps, add_sub_cancel]⟩

theorem wyInc_ne_zero {c : Config} (h : c.wf = true) : c.wyInc ≠ 0 := by
  intro hzero
  rw [Config.wf, hzero] at h
  exact absurd h (by decide)

/-! ### The zeros of `mix` -/

theorem mix_eq_zero_of_factor {c : Config} {s : U64} (h : s = 0 ∨ s ^^^ c.wyMask = 0) : mix c s = 0 := by
  have hproduct : (mixProduct c s).toNat = 0 := by
    rw [mixProduct_toNat]
    obtain h | h := h
    · rw [h]; exact Nat.zero_mul _
    · rw [h]; exact Nat.mul_zero _
  apply BitVec.eq_of_toNat_eq
  rw [mix_toNat, hproduct]
  rfl

@[simp] theorem mix_zero (c : Config) : mix c 0 = 0 := mix_eq_zero_of_factor (.inl rfl)

@[simp] theorem mix_wyMask (c : Config) : mix c c.wyMask = 0 := mix_eq_zero_of_factor (.inr BitVec.xor_self)

/-! ### Commands that load no seed -/

theorem gen_eq_of_outcome {o : Host.Outcome State Fault Refusal} {t u : State} (hu : o = .next u) (ht : o = .next t) :
    t.gen = u.gen := congrArg State.gen (Host.Outcome.next.inj (ht.symm.trans hu))

/-- R32, R86: a command that finds `g` and answers `r` has added to `S` one increment for each engine step of its row, and done nothing
else. -/
def Advances (i : Instr) (s : State) (g : Generator) (r : Response) : Prop :=
  exec i s = .next { s with
    gen := some { g with S := stateAfter s.cfg g.S (engineStepsOf i r.status) },
    responses := s.responses ++ [r] }

theorem advances_of_one_step {i : Instr} {s : State} {g : Generator} {r : Response} (hsteps : engineStepsOf i r.status = 1)
    (h : exec i s = .next { s with gen := some { g with S := g.S + s.cfg.wyInc }, responses := s.responses ++ [r] }) :
    Advances i s g r := by
  rw [Advances, hsteps, stateAfter_one, h]

theorem advances_of_no_step {i : Instr} {s : State} {g : Generator} {r : Response} (hs : s.gen = some g)
    (hsteps : engineStepsOf i r.status = 0) (h : exec i s = .next { s with responses := s.responses ++ [r] }) :
    Advances i s g r := by
  rw [Advances, hsteps, stateAfter_zero, h, ← hs]

theorem exec_advances {i : Instr} {s : State} {g : Generator} (hi : loadsSeed i = false) (hs : s.gen = some g) :
    ∃ r, Advances i s g r := by
  cases i with
  | construct wsel x => cases hi
  | reseed x => cases hi
  | next => exact ⟨_, advances_of_one_step rfl (exec_next_of_gen_some hs)⟩
  | generate => exact ⟨_, advances_of_one_step rfl (exec_generate_of_gen_some hs)⟩
  | readState => exact ⟨_, advances_of_no_step hs rfl (exec_readState_of_gen_some hs)⟩
  | generateRange a b =>
    by_cases hle : boundOf (widthBits g.WSEL) a ≤ boundOf (widthBits g.WSEL) b
    · exact ⟨_, advances_of_one_step rfl (exec_generateRange_of_le hs hle)⟩
    · exact ⟨_, advances_of_no_step hs rfl (exec_generateRange_of_lt hs (BitVec.not_le.mp hle))⟩

/-! ### Runs of words that load no seed -/

/-- R86: a step on a word that loads no seed, and what it answers if the word is a NEXT. -/
theorem step_advances {s : State} {w : CommandBits} {ps : List HostInput} {x : U64} {wsel : BitVec 2}
    (hp : s.pending = .command w :: ps) (hs : s.gen = some ⟨x, wsel⟩) (hw : wordLoadsSeed w = false) :
    ∃ r, step s = .next { s with
        gen := some ⟨stateAfter s.cfg x (wordSteps w r.status), wsel⟩, pending := ps, responses := s.responses ++ [r] } ∧
      (decode w = .ok .next → r = ⟨.ok, mix s.cfg (stateAfter s.cfg x (wordSteps w r.status))⟩) := by
  cases hd : decode w with
  | error e =>
    refine ⟨⟨.illegalCommand, 0⟩, ?_, nofun⟩
    rw [step_of_decode_error hp hd, wordSteps, hd, stateAfter_zero, ← hs]
  | ok i =>
    have hi : loadsSeed i = false := by rwa [wordLoadsSeed, hd] at hw
    have hgen : ({ s with pending := ps } : State).gen = some ⟨x, wsel⟩ := hs
    obtain ⟨r, hr⟩ := exec_advances hi hgen
    simp only [wordSteps, hd]
    refine ⟨r, (step_of_decode_ok hp hd).trans hr, ?_⟩
    rintro ⟨⟩
    obtain rfl := response_eq_of_outcome (exec_next_of_gen_some hgen) rfl hr rfl
    exact congrArg (fun y => Response.mk .ok (mix s.cfg y)) (stateAfter_one s.cfg x).symm

/-- R86: each NEXT among the words answered the mix at its own count of engine steps from `x`. -/
def NextsAnswerMix (c : Config) (x : U64) (ws : List CommandBits) (rs : List Response) : Prop :=
  ∀ (j : Nat) (w : CommandBits), ws[j]? = some w → decode w = .ok .next →
    rs[j]? = some ⟨.ok, mix c (stateAfter c x (totalSteps (ws.take (j + 1)) (rs.take (j + 1))))⟩

theorem nextsAnswerMix_cons {c : Config} {x : U64} {w : CommandBits} {ws : List CommandBits} {r : Response}
    {rs : List Response} (hfirst : decode w = .ok .next → r = ⟨.ok, mix c (stateAfter c x (wordSteps w r.status))⟩)
    (hrest : NextsAnswerMix c (stateAfter c x (wordSteps w r.status)) ws rs) : NextsAnswerMix c x (w :: ws) (r :: rs) := by
  intro j v hv hd
  cases j with
  | zero =>
    obtain rfl : w = v := Option.some.inj hv
    exact congrArg some (hfirst hd)
  | succ j =>
    have hsteps : totalSteps ((w :: ws).take (j + 1 + 1)) ((r :: rs).take (j + 1 + 1)) =
        wordSteps w r.status + totalSteps (ws.take (j + 1)) (rs.take (j + 1)) := rfl
    rw [hsteps, stateAfter_add]
    exact hrest j v hv hd

/-- R86, R119: a run of words that load no seed. -/
theorem runFor_advances (ws : List CommandBits) {s : State} {x : U64} {wsel : BitVec 2} (hs : s.gen = some ⟨x, wsel⟩)
    (hp : s.pending = asCommands ws) (hws : ∀ v ∈ ws, wordLoadsSeed v = false) :
    ∃ rs, rs.length = ws.length ∧ NextsAnswerMix s.cfg x ws rs ∧
      runFor ws.length s = .next { s with
        gen := some ⟨stateAfter s.cfg x (totalSteps ws rs), wsel⟩, pending := [], responses := s.responses ++ rs } := by
  induction ws generalizing s x with
  | nil =>
    refine ⟨[], rfl, nofun, (runFor_zero s).trans ?_⟩
    have hp' : s.pending = [] := hp
    rw [totalSteps, stateAfter_zero, List.append_nil, ← hs, ← hp']
  | cons w ws ih =>
    obtain ⟨hw, hrest⟩ := List.forall_mem_cons.mp hws
    obtain ⟨r, hstep, hnext⟩ := step_advances hp hs hw
    obtain ⟨rs, hlen, hmix, hrun⟩ := ih (s := { s with
      gen := some ⟨stateAfter s.cfg x (wordSteps w r.status), wsel⟩, pending := asCommands ws,
      responses := s.responses ++ [r] }) rfl rfl hrest
    refine ⟨r :: rs, congrArg (· + 1) hlen, nextsAnswerMix_cons hnext hmix,
      (runFor_succ ws.length hstep).trans (hrun.trans ?_)⟩
    rw [totalSteps, stateAfter_add, List.append_cons s.responses r rs]

/-! ### Runs of one drawing command -/

/-- With configuration `c` and a generator of width `wsel`, the command takes one engine step and answers `f` of the new state. -/
def Draws (i : Instr) (c : Config) (wsel : BitVec 2) (f : U64 → Response) : Prop :=
  ∀ (s : State) (x : U64), s.cfg = c → s.gen = some ⟨x, wsel⟩ →
    exec i s = .next { s with gen := some ⟨x + c.wyInc, wsel⟩, responses := s.responses ++ [f (x + c.wyInc)] }

theorem draws_next (c : Config) (wsel : BitVec 2) : Draws .next c wsel fun y => ⟨.ok, mix c y⟩ := by
  rintro s x rfl hs
  exact exec_next_of_gen_some hs

theorem draws_generate (c : Config) (wsel : BitVec 2) :
    Draws .generate c wsel fun y => ⟨.ok, zext64 (proj (widthBits wsel) (mix c y))⟩ := by
  rintro s x rfl hs
  exact exec_generate_of_gen_some hs

/-- What `n` such commands answer from `x`, the state advanced before each. -/
def drawn (f : U64 → Response) (c : Config) (x : U64) (n : Nat) : List Response :=
  match n with
  | 0 => []
  | n + 1 => f (x + c.wyInc) :: drawn f c (x + c.wyInc) n

@[simp] theorem drawn_length (f : U64 → Response) (c : Config) (x : U64) (n : Nat) : (drawn f c x n).length = n := by
  induction n generalizing x with
  | zero => rfl
  | succ n ih => exact congrArg (· + 1) (ih (x + c.wyInc))

theorem stateAfter_succ (c : Config) (x : U64) (n : Nat) : stateAfter c x (n + 1) = stateAfter c (x + c.wyInc) n := by
  rw [Nat.add_comm, stateAfter_add, stateAfter_one]

theorem eq_of_getElem?_drawn {f : U64 → Response} {c : Config} {x : U64} {n j : Nat} {r : Response}
    (h : (drawn f c x n)[j]? = some r) : r = f (stateAfter c x (j + 1)) := by
  induction n generalizing x j with
  | zero => cases h
  | succ n ih =>
    cases j with
    | zero =>
      rw [stateAfter_one]
      exact (Option.some.inj h).symm
    | succ j =>
      rw [stateAfter_succ]
      exact ih h

/-- R80, R86: `n` such commands in a row. -/
theorem runFor_draws {i : Instr} {c : Config} {wsel : BitVec 2} {f : U64 → Response} (hi : Draws i c wsel f) (n : Nat)
    {s : State} {x : U64} (hc : s.cfg = c) (hs : s.gen = some ⟨x, wsel⟩)
    (hp : s.pending = List.replicate n (.command (encode i))) :
    runFor n s = .next { s with
      gen := some ⟨stateAfter c x n, wsel⟩, pending := [], responses := s.responses ++ drawn f c x n } := by
  induction n generalizing s x with
  | zero =>
    have hp' : s.pending = [] := hp
    rw [runFor_zero, stateAfter_zero, drawn, List.append_nil, ← hs, ← hp']
  | succ n ih =>
    have hstep := (step_of_decode_ok hp (decode_encode i)).trans (hi { s with pending := _ } x hc hs)
    have hrest := ih (s := { s with
      gen := some ⟨x + c.wyInc, wsel⟩, pending := List.replicate n (.command (encode i)),
      responses := s.responses ++ [f (x + c.wyInc)] }) hc rfl rfl
    refine (runFor_succ n hstep).trans (hrest.trans ?_)
    rw [drawn, stateAfter_succ, List.append_cons s.responses _ (drawn _ _ _ _)]

/-! ### Draws at two widths -/

/-- R100, R102: a draw on the data port is a residue. -/
theorem zext64_proj_toNat (wsel : BitVec 2) (o : U64) :
    (zext64 (proj (widthBits wsel) o)).toNat = o.toNat % 2 ^ widthBits wsel := by
  rw [zext64_toNat (widthBits_le wsel), proj_toNat]

theorem widthBits_mono {w1 w2 : BitVec 2} (h : w1 ≤ w2) : widthBits w1 ≤ widthBits w2 := by
  revert w1 w2
  decide

/-- R104: the narrower draw is the low bits of the wider. -/
theorem zext64_proj_mod {w1 w2 : BitVec 2} (h : w1 ≤ w2) (o : U64) :
    (zext64 (proj (widthBits w1) o)).toNat = (zext64 (proj (widthBits w2) o)).toNat % 2 ^ widthBits w1 := by
  rw [zext64_proj_toNat, zext64_proj_toNat, Nat.mod_mod_of_dvd _ (Nat.pow_dvd_pow 2 (widthBits_mono h))]

/-- R103: at width 64 the projection keeps every bit. -/
theorem zext64_proj_of_width_three {wsel : BitVec 2} (h : wsel = 3) (o : U64) : zext64 (proj (widthBits wsel) o) = o := by
  apply BitVec.eq_of_toNat_eq
  rw [zext64_proj_toNat, h]
  exact Nat.mod_eq_of_lt o.isLt

end Sys2Proof.Machine
end

section
/-! PROOFS. The statements about the state sequence of 40_wyrand_engine.md and what each command writes (10_state.md). -/

open Sys2Proof Sys2Proof.Machine

/-- Settles O19: each word adds the engine steps read off it and its status, and a NEXT answers the mix of the state it has made. -/
theorem stateClosedForm : Obligations.StateClosedForm := by
  intro s x wsel ws hs hp hws
  obtain ⟨rs, hlen, hmix, hrun⟩ := runFor_advances ws hs hp hws
  exact ⟨_, rs, hrun, hlen, rfl, rfl, rfl, hmix⟩

/-- Settles O20: after `k` NEXT commands the state is the seed plus `k` increments, and an odd increment is invertible modulo `2^64`. -/
theorem stateSequenceHasFullPeriod : Obligations.StateSequenceHasFullPeriod := by
  intro s x wsel hwf hs
  have hrun (k : Nat) := runFor_draws (draws_next s.cfg wsel) k
    (s := { s with pending := List.replicate k (.command (encode .next)) }) rfl hs rfl
  refine ⟨fun k => ⟨_, _, hrun k, rfl, stateAfter_eq_self_iff hwf x k⟩, fun y => ?_⟩
  obtain ⟨k, hk, hy⟩ := exists_stateAfter_eq hwf x y
  exact ⟨k, hk, _, hy ▸ rfl, hrun k⟩

/-- Settles O21: CONSTRUCT leaves state 0, to which the step adds an odd, so non-zero, increment; `mix` is a product with `s` and with
`s` XOR the mask. -/
theorem zeroSeedAdvances : Obligations.ZeroSeedAdvances := by
  refine ⟨fun s t wsel hwf ht => ⟨wyInc_ne_zero hwf, ?_⟩, fun c => ⟨mix_zero c, mix_wyMask c⟩⟩
  rw [exec_construct_eq] at ht
  cases ht
  rw [exec_next_of_gen_some rfl, zero_add]

/-- Settles O22: each of the two seeds is one increment before a zero of `mix`. -/
theorem distinctSeedsBothAnswerZero : Obligations.DistinctSeedsBothAnswerZero := by
  intro s wsel hmask
  refine ⟨fun h => hmask (sub_left_inj.mp h).symm, fun seed hseed t ht => ?_⟩
  have hmix : mix s.cfg (seed + s.cfg.wyInc) = 0 := by
    obtain rfl | rfl := hseed <;> rw [sub_add_cancel]
    · exact mix_zero s.cfg
    · exact mix_wyMask s.cfg
  rw [exec_construct_eq] at ht
  cases ht
  rw [exec_next_of_gen_some rfl, hmix]

/-- Settles O41: every command keeps the configuration and the inputs; what it writes of the generator is in its own law. -/
theorem stateAccessByCommand : Obligations.StateAccessByCommand := by
  intro i s t ht
  obtain ⟨u, hu, gen, r, rfl⟩ := exec_answersOnce i s
  obtain rfl := Host.Outcome.next.inj (hu.symm.trans ht)
  refine ⟨rfl, rfl, r, rfl, fun wsel x hi => ?_, fun hi hs => ?_, fun x g hi hs => ?_, fun g hi hs => ?_⟩
  · subst hi
    exact gen_eq_of_outcome (exec_construct_eq wsel x s) ht
  · exact (gen_eq_of_outcome (exec_of_gen_none hs hi) ht).trans hs
  · subst hi
    exact gen_eq_of_outcome (exec_reseed_of_gen_some hs x) ht
  · obtain ⟨q, hq⟩ := exec_advances hi hs
    obtain rfl := response_eq_of_outcome hq rfl ht rfl
    exact gen_eq_of_outcome hq ht

/-- Settles O27: both runs advance the one state alike, and a narrower projection of a draw is the residue of a wider one. -/
theorem narrowResultsAreLowBitsOfWide : Obligations.NarrowResultsAreLowBitsOfWide := by
  intro s u x w1 w2 n hcfg hs hu hw hsp hup
  refine ⟨_, _, _, _, stateAfter u.cfg x n, runFor_draws (draws_generate u.cfg w1) n hcfg hs hsp,
    runFor_draws (draws_generate u.cfg w2) n rfl hu hup, rfl, rfl, rfl, rfl, drawn_length _ _ _ _, drawn_length _ _ _ _,
    fun j r q hr hq => ?_⟩
  obtain rfl := eq_of_getElem?_drawn hr
  obtain rfl := eq_of_getElem?_drawn hq
  exact ⟨rfl, rfl, zext64_proj_mod hw _⟩

/-- Settles O14: both laws leave the seed at the width the generator has. -/
theorem reseedActsAsConstruct : Obligations.ReseedActsAsConstruct := by
  intro s g x hs
  rw [exec_reseed_of_gen_some hs, exec_construct_eq]

/-- Settles O42: the laws of the three commands, at either width. -/
theorem engineCommandsDoNotReadWidth : Obligations.EngineCommandsDoNotReadWidth := by
  intro c ps rs S w1 w2 i hi
  obtain rfl | rfl | ⟨x, rfl⟩ := hi
  · exact ⟨_, _, exec_next_of_gen_some (g := ⟨S, w1⟩) rfl, exec_next_of_gen_some (g := ⟨S, w2⟩) rfl⟩
  · exact ⟨_, _, exec_readState_of_gen_some (g := ⟨S, w1⟩) rfl, exec_readState_of_gen_some (g := ⟨S, w2⟩) rfl⟩
  · exact ⟨_, _, exec_reseed_of_gen_some (g := ⟨S, w1⟩) rfl x, exec_reseed_of_gen_some (g := ⟨S, w2⟩) rfl x⟩

/-- Settles O26: both laws take the same step, and at width 64 the projection of its output is the output. -/
theorem widthSixtyFourGenerateIsNext : Obligations.WidthSixtyFourGenerateIsNext := by
  intro s g hs hw
  rw [exec_generate_of_gen_some hs, exec_next_of_gen_some hs, zext64_proj_of_width_three hw]

/-- Settles O28: GENERATE's data is a residue modulo `2^W`. -/
theorem generateFitsWidth : Obligations.GenerateFitsWidth := by
  intro s t g hs ht
  rw [exec_generate_of_gen_some hs] at ht
  cases ht
  refine ⟨_, rfl, rfl, Nat.le_sub_one_of_lt ?_⟩
  rw [zext64_proj_toNat]
  exact Nat.mod_lt _ (Nat.two_pow_pos _)

end

section
/-! PROOFS. Canonical words (30_encoding.md R67, R70): the operand fields a command does not use, and what decoding and a step make of
them. -/

namespace Sys2Proof

/-- The opcode table's numbering keeps all 136 bits of a word. -/
@[simp] theorem tableWord_toNat (w : CommandBits) : tableWord 136 w.toNat = w := by
  rw [tableWord, Nat.mod_eq_of_lt w.isLt, BitVec.ofNat_toNat, BitVec.setWidth_eq]

theorem decodeTableWord_of_decode_ok {w : CommandBits} {i : Instr} (h : decode w = .ok i) :
    decodeTableWord 136 w.toNat = some i := by
  simp only [decodeTableWord, tableWord_toNat, decodeBytes_wordBytes, h]

/-! ### Clearing the unused operand fields -/

/-- R67: the fields of a word with those the command ignores cleared. -/
def clearUnused (i : Instr) (c : CmdWord) : CmdWord :=
  match i with
  | .construct _ _ => { c with b := 0 }
  | .reseed _ => { c with b := 0 }
  | .next => { c with a := 0, b := 0 }
  | .generate => { c with a := 0, b := 0 }
  | .generateRange _ _ => c
  | .readState => { c with a := 0, b := 0 }

/-- R68: a legal word is one of the six commands' fields, with any operands in the fields the command ignores. -/
theorem fields_of_legal {c : CmdWord} (h : c.legal = true) :
    c = ⟨1, c.wsel, 0, c.a, c.b⟩ ∨ c = ⟨2, 0, 0, c.a, c.b⟩ ∨ c = ⟨3, 0, 0, c.a, c.b⟩ ∨ c = ⟨4, 0, 0, c.a, c.b⟩ ∨
      c = ⟨5, 0, 0, c.a, c.b⟩ ∨ c = ⟨6, 0, 0, c.a, c.b⟩ := by
  have hops : ∀ op : BitVec 3, 1 ≤ op.toNat ∧ op.toNat ≤ 6 →
      op = 1 ∨ op = 2 ∨ op = 3 ∨ op = 4 ∨ op = 5 ∨ op = 6 := by decide
  obtain ⟨hrsv, hop, hwsel⟩ := (legal_iff c).mp h
  obtain ⟨op, wsel, rsv, a, b⟩ := c
  obtain rfl : rsv = 0 := hrsv
  obtain rfl | hne := eq_or_ne op 1
  · exact .inl rfl
  · obtain rfl : wsel = 0 := hwsel.resolve_right hne
    simpa using hops op hop

theorem legal_of_decodeFields_ok {c : CmdWord} {i : Instr} (h : decodeFields c = .ok i) : c.legal = true := by
  by_contra hl
  obtain ⟨e, he⟩ := decodeFields_error_of_not_legal hl
  cases he.symm.trans h

/-- R67: encoding what a word decodes to clears the fields the command ignores, and only those. -/
theorem encodeFields_of_decodeFields {c : CmdWord} {i : Instr} (h : decodeFields c = .ok i) :
    encodeFields i = clearUnused i c := by
  obtain hc | hc | hc | hc | hc | hc := fields_of_legal (legal_of_decodeFields_ok h) <;>
    · rw [hc] at h ⊢
      obtain rfl := Except.ok.inj h
      rfl

theorem encode_of_decode {w : CommandBits} {i : Instr} (h : decode w = .ok i) :
    encode i = packFields (clearUnused i (fieldsOf w)) := congrArg packFields (encodeFields_of_decodeFields h)

/-- A mask of the low `n` bits is the residue modulo `2^n`. -/
theorem and_lowMask_toNat {w m : CommandBits} (n : Nat) (hm : m.toNat = 2 ^ n - 1) : (w &&& m).toNat = w.toNat % 2 ^ n := by
  rw [BitVec.toNat_and, hm, Nat.and_two_pow_sub_one_eq_mod]

/-- R56: the operands stand above the control byte, at bits 8 and 72. -/
theorem exists_controlByte_number (c : CmdWord) :
    ∃ k < 2 ^ 8, ∀ a b : U64, (packFields { c with a := a, b := b }).toNat = b.toNat * 2 ^ 72 + a.toNat * 2 ^ 8 + k := by
  refine ⟨c.rsv.toNat * 2 ^ 5 + c.wsel.toNat * 2 ^ 3 + c.op.toNat, ?_, fun a b => ?_⟩
  · have hrsv := c.rsv.isLt
    have hwsel := c.wsel.isLt
    have hop := c.op.isLt
    omega
  · simp only [packFields_toNat, Nat.add_assoc]

theorem packFields_clear_b (w : CommandBits) :
    packFields { fieldsOf w with b := 0 } = w &&& 0xFFFFFFFFFFFFFFFFFF := by
  obtain ⟨k, hk, hnumber⟩ := exists_controlByte_number (fieldsOf w)
  have hw := (congrArg BitVec.toNat (packFields_fieldsOf w)).symm.trans (hnumber (fieldsOf w).a (fieldsOf w).b)
  have hclear : (packFields { fieldsOf w with b := 0 }).toNat = 0 * 2 ^ 72 + _ * 2 ^ 8 + k := hnumber (fieldsOf w).a 0
  apply BitVec.eq_of_toNat_eq
  rw [and_lowMask_toNat 72 rfl, hclear, hw]
  have ha := (fieldsOf w).a.isLt
  omega

theorem packFields_clear_a_b (w : CommandBits) : packFields { fieldsOf w with a := 0, b := 0 } = w &&& 0xFF := by
  obtain ⟨k, hk, hnumber⟩ := exists_controlByte_number (fieldsOf w)
  have hw := (congrArg BitVec.toNat (packFields_fieldsOf w)).symm.trans (hnumber (fieldsOf w).a (fieldsOf w).b)
  have hclear : (packFields { fieldsOf w with a := 0, b := 0 }).toNat = 0 * 2 ^ 72 + 0 * 2 ^ 8 + k := hnumber 0 0
  apply BitVec.eq_of_toNat_eq
  rw [and_lowMask_toNat 8 rfl, hclear, hw]
  omega

/-! ### Words that differ in unused operand fields -/

theorem decode_of_controlByte_eq {v w : CommandBits} (h : v.setWidth 8 = w.setWidth 8) :
    decode v = decodeFields { fieldsOf w with a := v.extractLsb' 8 64, b := v.extractLsb' 72 64 } := by
  rw [decode, fieldsOf_of_controlByte h, fieldsOf_of_controlByte (w := w) rfl]

/-- R67: CONSTRUCT and RESEED ignore `b`. -/
theorem decodeFields_ignores_b {c : CmdWord} (h : c.op = 1 ∨ c.op = 2) (b : U64) :
    decodeFields { c with b := b } = decodeFields c := by
  obtain h | h := h <;> simp [decodeFields, h]

/-- R67: NEXT, GENERATE and READ_STATE ignore both operands. -/
theorem decodeFields_ignores_a_b {c : CmdWord} (h : c.op = 3 ∨ c.op = 4 ∨ c.op = 6) (a b : U64) :
    decodeFields { c with a := a, b := b } = decodeFields c := by
  obtain h | h | h := h <;> simp [decodeFields, h]

/-- R63, R68: whether a word with GENERATE_RANGE's opcode is legal does not depend on its operands. -/
theorem decodeFields_generateRange_cases {c : CmdWord} (h : c.op = 5) :
    (∀ a b, decodeFields { c with a := a, b := b } = .ok (.generateRange a b)) ∨
    ∃ e, ∀ a b, decodeFields { c with a := a, b := b } = .error e := by
  by_cases hrsv : c.rsv = 0
  · by_cases hwsel : c.wsel = 0
    · exact .inl fun a b => by simp [decodeFields, h, hrsv, hwsel]
    · exact .inr ⟨.widthOutsideConstruct, fun a b =>
        decodeFields_widthOutsideConstruct hrsv (by simp [h]) (by simp [h]) hwsel⟩
  · exact .inr ⟨.reservedBits, fun a b => decodeFields_reservedBits hrsv⟩

end Sys2Proof

namespace Sys2Proof.Machine

/-- A step reads a word only by decoding it. -/
theorem step_present_congr {v w : CommandBits} (h : decode v = decode w) (s : State) :
    step (present (.command v) s) = step (present (.command w) s) := by
  cases hw : decode w with
  | ok i => rw [step_present_of_decode_ok hw, step_present_of_decode_ok (h.trans hw)]
  | error e => rw [step_present_of_decode_error hw, step_present_of_decode_error (h.trans hw)]

/-- R121, R132: GENERATE_RANGE reads its operands at most as bounds of the width the generator has. -/
theorem exec_generateRange_congr_of_gen {s : State} {a b a' b' : U64}
    (h : ∀ g, s.gen = some g → boundOf (widthBits g.WSEL) a = boundOf (widthBits g.WSEL) a' ∧
      boundOf (widthBits g.WSEL) b = boundOf (widthBits g.WSEL) b') :
    exec (.generateRange a b) s = exec (.generateRange a' b') s := by
  cases hs : s.gen with
  | none =>
    have hrefused (x y : U64) := exec_of_gen_none (i := .generateRange x y) hs nofun
    rw [hrefused, hrefused]
  | some g =>
    obtain ⟨ha, hb⟩ := h g hs
    exact exec_generateRange_congr hs ha hb

end Sys2Proof.Machine
end

section
/-! PROOFS. The statements about canonical words and unused operand fields (30_encoding.md R67, R70). -/

open Sys2Proof Sys2Proof.Machine

/-- Settles O4: the byte string and the table's numbering both give the word back, and the canonical word decodes to its command. -/
theorem decodeEncodeRoundTrip : Obligations.DecodeEncodeRoundTrip :=
  fun i => ⟨decode_encode i, (decodeBytes_wordBytes _).trans (decode_encode i), decodeTableWord_of_decode_ok (decode_encode i)⟩

/-- Settles O5: encoding clears the ignored fields, and clearing a word's upper fields is masking it. -/
theorem encodeClearsIgnoredBits : Obligations.EncodeClearsIgnoredBits := by
  intro w
  refine ⟨fun wsel seed hd => ?_, fun seed hd => ?_, fun hd => ?_, fun hd => ?_, fun a b hd => ?_, fun hd => ?_⟩ <;>
    rw [encode_of_decode hd]
  · exact packFields_clear_b w
  · exact packFields_clear_b w
  · exact packFields_clear_a_b w
  · exact packFields_clear_a_b w
  · exact packFields_fieldsOf w
  · exact packFields_clear_a_b w

/-- Settles O6: in each of the first two cases the words decode alike, so that a step on them is the same; in the third they decode to
ranges that agree as bounds, or both do not decode. -/
theorem unusedOperandFieldsIgnored : Obligations.UnusedOperandFieldsIgnored := by
  refine ⟨fun v w s hbyte => ⟨fun hop ha => ?_, fun hop => ?_, fun hop hbounds => ?_⟩, fun i j h => ?_,
    ⟨3, 0x503, by decide, .next, rfl, rfl⟩⟩
  · have hd : decode v = decode w := by
      rw [decode_of_controlByte_eq hbyte, ha]
      exact decodeFields_ignores_b (c := fieldsOf w) hop _
    exact ⟨hd, step_present_congr hd s⟩
  · have hd : decode v = decode w := (decode_of_controlByte_eq hbyte).trans (decodeFields_ignores_a_b hop _ _)
    exact ⟨hd, step_present_congr hd s⟩
  · have hv := decode_of_controlByte_eq hbyte
    obtain hok | ⟨e, herror⟩ := decodeFields_generateRange_cases (c := fieldsOf w) hop
    · rw [step_present_of_decode_ok (hv.trans (hok _ _)), step_present_of_decode_ok (w := w) (hok _ _)]
      refine exec_generateRange_congr_of_gen fun g hs => ?_
      obtain ⟨ha, hb⟩ := hbounds g hs
      exact ⟨(boundOf_eq_boundOf_iff _ _ _).mpr ha, (boundOf_eq_boundOf_iff _ _ _).mpr hb⟩
    · exact step_present_congr ((hv.trans (herror _ _)).trans (herror _ _).symm) s
  · rw [decode_encode, decode_encode] at h
    exact congrArg encode (Except.ok.inj h)

end

section
/-! PROOFS. The range sampler's results (42_range_sampler.md R115, R116, R118): the bounds of a value, the full range, and how many draws
give each value. -/

namespace Sys2Proof.Machine

/-- R115: a remainder by the span added to `low` stays between the bounds. -/
theorem rangeValue_mem {W : Nat} {low high : BitVec W} (h : low ≤ high) (r : BitVec W) :
    low.toNat ≤ (rangeValue low high r).toNat ∧ (rangeValue low high r).toNat ≤ high.toNat := by
  have hle : low.toNat ≤ high.toNat := h
  have hrem : r.toNat % (high.toNat - low.toNat + 1) < high.toNat - low.toNat + 1 := Nat.mod_lt _ (Nat.succ_pos _)
  rw [rangeValue_toNat h]
  omega

/-- R116: the span of the full range is `2^W`, above every draw. -/
theorem rangeValue_fullRange {W : Nat} {low high : BitVec W} (hlow : low.toNat = 0) (hhigh : high.toNat = 2 ^ W - 1)
    (r : BitVec W) : rangeValue low high r = r := by
  have hle : low ≤ high := by
    rw [BitVec.le_def, hlow]
    exact Nat.zero_le _
  have hspan : high.toNat - low.toNat + 1 = 2 ^ W := by
    rw [hlow, hhigh, Nat.sub_zero, Nat.sub_add_cancel Nat.one_le_two_pow]
  apply BitVec.eq_of_toNat_eq
  rw [rangeValue_toNat hle, hspan, hlow, Nat.zero_add, Nat.mod_eq_of_lt r.isLt]

/-! ### Counting draws -/

/-- R118: offset `j` is the value of exactly the draws congruent to `j` modulo the span. -/
theorem rangeValue_eq_offset_iff {W : Nat} {low high : BitVec W} {j n : Nat} (h : low ≤ high)
    (hj : j < high.toNat - low.toNat + 1) (hn : n < 2 ^ W) :
    (rangeValue low high (BitVec.ofNat W n)).toNat = low.toNat + j ↔ n ≡ j [MOD high.toNat - low.toNat + 1] := by
  rw [rangeValue_toNat h, BitVec.toNat_ofNat, Nat.mod_eq_of_lt hn, Nat.add_left_cancel_iff, Nat.ModEq, Nat.mod_eq_of_lt hj]

/-- The numbers below `N` congruent to `j` modulo `m` are `j`, `j + m`, and so on up to `N - 1`. -/
theorem count_modEq_eq {N m j : Nat} (hj : j < m) (hN : m ≤ N) : N.count (· ≡ j [MOD m]) = (N - 1 - j) / m + 1 := by
  have hm : 0 < m := Nat.zero_lt_of_lt hj
  have hrem : N % m < m := Nat.mod_lt _ hm
  have hdecomp : N - 1 - j + m = m * (N / m) + (N % m + (m - 1 - j)) := by
    have hdiv := Nat.div_add_mod N m
    omega
  rw [Nat.count_modEq_card N hm, Nat.mod_eq_of_lt hj, ← Nat.add_div_right _ hm, hdecomp, Nat.mul_add_div hm]
  congr 1
  split_ifs with hlt
  · rw [Nat.div_eq_of_lt_le] <;> omega
  · rw [Nat.div_eq_of_lt]; omega

end Sys2Proof.Machine
end

section
/-! PROOFS. The statements about the range sampler's results (42_range_sampler.md) and about commands that do not fail
(70_reset_and_hazards.md). -/

open Sys2Proof Sys2Proof.Machine

/-- Settles O32: an answer OK comes from ordered bounds, and then the value lies between them. -/
theorem rangeResultWithinBounds : Obligations.RangeResultWithinBounds := by
  intro s t g a b r hs ht hr hst
  by_cases hle : boundOf (widthBits g.WSEL) a ≤ boundOf (widthBits g.WSEL) b
  · obtain rfl := response_eq_of_outcome (exec_generateRange_of_le hs hle) rfl ht hr
    have hmem := rangeValue_mem hle (proj (widthBits g.WSEL) (mix s.cfg (g.S + s.cfg.wyInc)))
    rwa [boundOf_toNat, boundOf_toNat, ← zext64_toNat (widthBits_le g.WSEL)] at hmem
  · obtain rfl := response_eq_of_outcome (exec_generateRange_of_lt hs (BitVec.not_le.mp hle)) rfl ht hr
    cases hst

/-- Settles O33: bounds 0 and `2^W - 1` are in order, and their range leaves every draw as it is. -/
theorem fullRangeIsGenerate : Obligations.FullRangeIsGenerate := by
  intro s g a b hs ha hb
  have hlow : (boundOf (widthBits g.WSEL) a).toNat = 0 := (boundOf_toNat _ a).trans ha
  have hhigh : (boundOf (widthBits g.WSEL) b).toNat = 2 ^ widthBits g.WSEL - 1 := (boundOf_toNat _ b).trans hb
  have hle : boundOf (widthBits g.WSEL) a ≤ boundOf (widthBits g.WSEL) b := by
    rw [BitVec.le_def, hlow]
    exact Nat.zero_le _
  rw [exec_generateRange_of_le hs hle, rangeValue_fullRange hlow hhigh, exec_generate_of_gen_some hs]

/-- Settles O36: the draws that give offset `j` are the numbers below `2^W` congruent to `j` modulo the span. -/
theorem moduloBiasCounts : Obligations.ModuloBiasCounts := by
  intro W low high j h hj
  have hspan : high.toNat - low.toNat + 1 ≤ 2 ^ W := by
    have hhigh := high.isLt
    omega
  rw [← count_modEq_eq hj hspan]
  refine List.countP_congr fun n hn => ?_
  rw [decide_eq_true_iff, decide_eq_true_iff]
  exact rangeValue_eq_offset_iff h hj (List.mem_range.mp hn)

/-- Settles O40: a constructed state and bounds in order leave neither reason for a command to be refused. -/
theorem validCommandsAreOk : Obligations.ValidCommandsAreOk := by
  intro s g w i hs hd hbounds
  rw [step_present_of_decode_ok hd]
  obtain ⟨hcond, -⟩ | ⟨⟨g', a, b, hs', hi, hlt⟩, -⟩ | ⟨-, -, h, d, hexec⟩ := exec_status_cases i s
  · exact absurd hcond (not_notConstructedFor hs)
  · obtain rfl : g = g' := Option.some.inj (hs.symm.trans hs')
    exact absurd hlt (Nat.not_lt.mpr (hbounds a b hi))
  · exact ⟨_, d, hexec, rfl⟩

end
